-- ==== Sys2Proof/Word.lean ====
section
/-! DEFINITION. The word types of the fields that cross a port (R179): bytes, two-byte and four-byte fields. -/

namespace Sys2Proof

/-- One byte of a frame, and every one-byte field. -/
abbrev Byte := BitVec 8
/-- A two-byte field: a seq, a hysteresis, a pulse width, a count of losses or errors (R179). -/
abbrev Half := BitVec 16
/-- A four-byte field: a timestamp, a modulus, a count or a bound as sent (R179). -/
abbrev Word := BitVec 32

end Sys2Proof
end

