-- ==== Sys2Proof/Config.lean ====
section
/-! DEFINITION. The constants that the spec fixes for the part (00_scope.md 0.4). No value of the part is left open by
the spec, so there is no opaque constant here. -/

namespace Sys2Proof.Config

/-- The sync byte (R179). -/
def syncByte : Byte := 0xA5
/-- The shortest body of a request frame (R158, R179). -/
def minBody : Nat := 4
/-- The longest body of a request frame (R158, R179). -/
def maxBody : Nat := 40
/-- Records a capture ring holds (R66). -/
def ringSize : Nat := 4
/-- Records an event queue holds (R88). -/
def queueSize : Nat := 16
/-- The most records one EVT_READ returns (R98). -/
def maxRead : Nat := 8
/-- A frame accepted while so many responses wait is an overrun (R165). -/
def overrunAt : Nat := 3
/-- The frame-gap limit in increments of the time base (R161). -/
def frameGap : Nat := 5000
/-- Increments of the time base in one unit of a silence setting or an AWAIT timeout (R35). -/
def tenMs : Nat := 10000
/-- The least linear count (R2). -/
def countMin : Int := -2147483648
/-- The greatest linear count (R2). -/
def countMax : Int := 2147483647
/-- The least turns (R2). -/
def turnsMin : Int := -32768
/-- The greatest turns (R2). -/
def turnsMax : Int := 32767
/-- The greatest modulus (R2). -/
def maxModulus : Nat := 16777216
/-- The part code IDENT reports (R176). -/
def partCode : Half := 6208
/-- The revision IDENT reports (R176). -/
def revision : Byte := 1
/-- The pulse width of a line's defaults (R118). -/
def defaultWidth : Half := 1000

end Sys2Proof.Config
end

