-- ==== Sys2Proof/Syntax.lean ====
section
/-! DEFINITION. The commands of the hub: one constructor of Instr for each row of spec/opcode_table.json, with the row's
operands. A request is an accepted frame: a header and the parameter fields of R181 as they stand in the body. -/

namespace Sys2Proof

/-- A port, and the session and the master that belong to it: 0 is M0, 1 is M1, 2 is M2. -/
abbrev PortId := Fin 3
/-- A counting channel CH0 to CH7. -/
abbrev ChanId := Fin 8
/-- An output line OUT0 to OUT5. -/
abbrev LineId := Fin 6
/-- A capture line CAP0 or CAP1. -/
abbrev CapId := Fin 2
/-- A slot of the zone table, which is the id of the zone it holds (R36). -/
abbrev ZoneId := Fin 32
/-- A claimable resource: 0 to 7 are the channels, 8 to 13 the output lines (R107). -/
abbrev ResId := Fin 14

/-- The levels of the pins when a power-on reset ends: bit n is the pin numbered n, 1 is high. `lrst` has bit n set
where LRSTn_n is at its active level. -/
structure Pins where
  a : Byte
  b : Byte
  i : Byte
  g : Byte
  cap : BitVec 2
  safe : BitVec 6
  lrst : BitVec 3
deriving DecidableEq, Repr

/-- Which inputs of an A/B pair one transition changes (R4). -/
inductive PairChange where
  | aOnly
  | bOnly
  | both
deriving DecidableEq, Repr

/-- The header of an accepted request frame (R163): the port that took it, its tag and epoch, and how many bytes its
body held. -/
structure Head where
  port : PortId
  tag : Byte
  epoch : Byte
  len : Nat
deriving DecidableEq, Repr

/-- The request kinds of R181. -/
inductive Kind where
  | chanConfig | chanPreset | chanHome | chanClearFault | chanRead
  | timeRead
  | zoneCreate | zoneArm | zoneDisarm | zoneDelete | zoneRead | zoneList
  | capture | capSubscribe | capPolicy | capFetch | capAck | capStatus
  | evtRead | evtAttn
  | claim | release | claimList | outMode | outSet | outRead
  | openSession | closeSession | nop | hubReset
  | await | cancel | ident | portStatus
deriving DecidableEq, Repr

/-- The parameter fields of a ZONE_CREATE, in the order of the layout of R181. -/
structure ZoneParams where
  channel : Byte
  low : Word
  high : Word
  hysteresis : Half
  enterEvent : Byte
  enterMask : Byte
  enterTrigger : Byte
  exitEvent : Byte
  exitMask : Byte
  exitTrigger : Byte
  linkLine : Byte
  linkFollow : Byte
deriving DecidableEq, Repr

/-- The commands, one constructor for each row of spec/opcode_table.json, in its order. -/
inductive Instr where
  /-- POWER_ON_RESET: PORST_n asserted and released, with the pin levels at the release. -/
  | powerOnReset (pins : Pins)
  /-- AB_PAIR_TRANSITION: one transition of a channel's A/B pair (R4). -/
  | abPairTransition (channel : ChanId) (change : PairChange)
  /-- INDEX_EDGE: one change of level of a channel's I input. -/
  | indexEdge (channel : ChanId)
  /-- GATE_CHANGE: one change of level of a channel's G input. -/
  | gateChange (channel : ChanId)
  /-- CAPTURE_LINE_EDGE: one change of level of CAP0 or CAP1. -/
  | captureLineEdge (line : CapId)
  /-- LRST_N_ASSERTED: a port's LRST_n goes to its active level. -/
  | lrstNAsserted (port : PortId)
  /-- LRST_N_RELEASED: a port's LRST_n goes back to its inactive level. -/
  | lrstNReleased (port : PortId)
  /-- CRC_FAILURE: the second CRC byte of a frame with this body is taken and the CRC does not match. -/
  | crcFailure (port : PortId) (body : List Byte) (crc : Half)
  /-- FRAMING_ERROR: a length byte outside 4 to 40 is taken. -/
  | framingError (port : PortId) (length : Byte)
  /-- FRAME_GAP_TIMEOUT: a port's frame-gap timer runs out. -/
  | frameGapTimeout (port : PortId)
  /-- PULSE_TIMER_EXPIRY: a line's pulse timer runs out. -/
  | pulseTimerExpiry (line : LineId)
  /-- SILENCE_TIMEOUT: a session's silence timer runs out. -/
  | silenceTimeout (port : PortId)
  /-- AWAIT_TIMEOUT: a port's AWAIT timer runs out. -/
  | awaitTimeout (port : PortId)
  /-- AWAIT_ENDED_BY_STORE: a port takes the notice of a store and ends its AWAIT. -/
  | awaitEndedByStore (port : PortId)
  /-- RESPONSE_SENT: the response a port is sending has been sent whole. -/
  | responseSent (port : PortId)
  | chanConfig (h : Head) (channel mode : Byte) (modulus : Word) (invert gateUse indexMark : Byte)
  | chanPreset (h : Head) (channel : Byte) (count : Word) (turns : Half)
  | chanHome (h : Head) (channel cancel : Byte)
  | chanClearFault (h : Head) (channel : Byte)
  | chanRead (h : Head) (channel : Byte)
  | timeRead (h : Head)
  | zoneCreate (h : Head) (z : ZoneParams)
  | zoneArm (h : Head) (zone : Byte)
  | zoneDisarm (h : Head) (zone : Byte)
  | zoneDelete (h : Head) (zone : Byte)
  | zoneRead (h : Head) (zone : Byte)
  | zoneList (h : Head)
  | capture (h : Head) (mask : Byte)
  | capSubscribe (h : Head) (line edge mask : Byte)
  | capPolicy (h : Head) (policy : Byte)
  | capFetch (h : Head)
  | capAck (h : Head) (seq : Half)
  | capStatus (h : Head)
  | evtRead (h : Head) (n : Byte)
  | evtAttn (h : Head) (onOff : Byte)
  | claim (h : Head) (resource : Byte)
  | release (h : Head) (resource : Byte)
  | claimList (h : Head)
  | outMode (h : Head) (line mode polarity : Byte) (width : Half) (retrigger : Byte)
  | outSet (h : Head) (line level : Byte)
  | outRead (h : Head) (line : Byte)
  | openSession (h : Head) (silence : Byte)
  | closeSession (h : Head)
  | nop (h : Head)
  | hubReset (h : Head)
  | await (h : Head) (timeout : Byte)
  | cancel (h : Head)
  | ident (h : Head)
  | portStatus (h : Head)
  /-- TIMESTAMP_INCREMENT: one rising edge of REFIN. -/
  | timestampIncrement
  /-- FRAME_BYTE_TAKEN: a byte is taken from a port's receive line. -/
  | frameByteTaken (port : PortId) (byte : Byte)
  /-- UNKNOWN_REQUEST_KIND: a frame whose kind code R181 does not list is accepted. -/
  | unknownRequestKind (h : Head) (code : Half)
deriving DecidableEq, Repr

end Sys2Proof
end

