-- ==== Sys2Proof/Machine/State.lean ====
section
/-! DEFINITION. The state of the hub as plain data: every record, table, list, timer and pin that the spec names, their
values after power-on reset, and the reasons a step can stop. -/

namespace Sys2Proof.Machine

/-! ## Counting channels (chapter 1) -/

/-- The counting modes (R1). -/
inductive ChanMode where
  | off
  | quad
  | eventDir
  | eventUp
deriving DecidableEq, Repr

/-- The states of a channel (R3). -/
inductive ChanState where
  | off
  | counting
  | held
  | fault
deriving DecidableEq, Repr

/-- Levels of the four inputs of a channel; true is high. -/
structure Levels where
  a : Bool
  b : Bool
  i : Bool
  g : Bool
deriving DecidableEq, Repr

/-- A recorded index position (R15). -/
structure IndexMark where
  count : Int
  turns : Int
  stamp : Word
deriving DecidableEq, Repr

/-- The channel record (R1). `modulus` 0 is a linear channel. Count and turns are the signed numbers of R2. -/
structure Channel where
  mode : ChanMode
  modulus : Nat
  invert : Bool
  gateUse : Bool
  indexMark : Bool
  state : ChanState
  count : Int
  turns : Int
  referenced : Bool
  wrapped : Bool
  homing : Bool
  mark : Option IndexMark
  faultCount : Byte
  levels : Levels
deriving DecidableEq, Repr

/-! ## Zones (chapter 3) -/

/-- The states of a zone (R37). -/
inductive ZoneState where
  | idle
  | inside
  | outside
deriving DecidableEq, Repr

/-- What a zone does on an entry or an exit (R37). -/
structure ActionSet where
  event : Bool
  mask : Byte
  trigger : Bool
deriving DecidableEq, Repr

/-- A zone's output link (R37). -/
structure Link where
  line : LineId
  follow : Bool
deriving DecidableEq, Repr

/-- The zone record (R37); the id is the slot that holds it. -/
structure Zone where
  owner : PortId
  channel : ChanId
  low : Int
  high : Int
  hysteresis : Nat
  armed : Bool
  state : ZoneState
  onEnter : ActionSet
  onExit : ActionSet
  link : Option Link
  entryCount : Half
deriving DecidableEq, Repr

/-! ## Captures (chapter 4) -/

/-- What took a capture (R67). The zone field of the record is the id that the two zone causes carry, absent for the
others. -/
inductive CaptureCause where
  | request
  | line (n : CapId)
  | zoneEnter (z : ZoneId)
  | zoneExit (z : ZoneId)
deriving DecidableEq, Repr

/-- One channel's part of a capture (R68). -/
structure ChannelEntry where
  channel : ChanId
  state : ChanState
  count : Int
  turns : Int
  referenced : Bool
deriving DecidableEq, Repr

/-- A capture record (R67). -/
structure CaptureRecord where
  seq : Half
  cause : CaptureCause
  stamp : Word
  mask : Byte
  entries : List ChannelEntry
deriving DecidableEq, Repr

/-- The ring policies (R65). -/
inductive Policy where
  | keepOldest
  | keepNewest
deriving DecidableEq, Repr

/-- The edges a subscription accepts (R77). -/
inductive SubEdge where
  | rising
  | falling
  | both
deriving DecidableEq, Repr

/-- A subscription to a capture line (R65). -/
structure Subscription where
  edge : SubEdge
  mask : Byte
deriving DecidableEq, Repr

/-- The capture state of a session (R65); the ring is oldest first. -/
structure CaptureState where
  ring : List CaptureRecord
  seqCounter : Half
  policy : Policy
  lost : Half
  lossReported : Bool
  subs : Vector (Option Subscription) 2
deriving DecidableEq, Repr

/-! ## Events (chapter 5) -/

/-- The event kinds of R91, each with the subject and the arguments that its kind carries. -/
inductive Event where
  | zoneEnter (z : ZoneId) (count turns : Int)
  | zoneExit (z : ZoneId) (count turns : Int)
  | zoneResync (z : ZoneId) (state : ZoneState)
  | captureReady (seq : Half)
  | captureLost (lost : Half)
  | indexMark (c : ChanId) (count turns : Int)
  | homed (c : ChanId)
  | channelFault (c : ChanId) (count : Int)
  | channelRecovered (c : ChanId)
  | channelReconfigured (c : ChanId)
  | claimFreed (r : ResId)
  | overflow (lost : Half)
deriving DecidableEq, Repr

/-- An event record (R90). -/
structure EventRecord where
  event : Event
  stamp : Word
deriving DecidableEq, Repr

/-- The event queue of a session (R89), oldest record first, with the ATTN_n line it drives (R102): `attn` true is
asserted. -/
structure EventQueue where
  records : List EventRecord
  overflow : Half
  enabled : Bool
  attn : Bool
deriving DecidableEq, Repr

/-! ## Claims and output lines (chapter 6) -/

/-- A held entry of the claim table (R107): the stamp is present exactly while the entry is held. -/
structure Claim where
  holder : PortId
  stamp : Word
deriving DecidableEq, Repr

/-- The polarities of a line (R118). -/
inductive Polarity where
  | activeHigh
  | activeLow
deriving DecidableEq, Repr

/-- The modes of a line (R118). -/
inductive OutMode where
  | direct
  | follow
  | pulse
deriving DecidableEq, Repr

/-- What a trigger does to a running pulse (R127). -/
inductive Retrigger where
  | restart
  | ignore
deriving DecidableEq, Repr

/-- The drive of a line (R118). -/
inductive Drive where
  | safe
  | active
  | inactive
deriving DecidableEq, Repr

/-- The record of an output line (R118), with its pin (R120). `direct` true is the direct level ACTIVE. The timer holds
the increments left, none when it is not running. `safe` and `pin` true are high. -/
structure OutLine where
  polarity : Polarity
  mode : OutMode
  direct : Bool
  width : Half
  retrigger : Retrigger
  timer : Option Nat
  drive : Drive
  safe : Bool
  pin : Bool
deriving DecidableEq, Repr

/-! ## Sessions (chapter 7) -/

/-- The close causes (R136). -/
inductive CloseCause where
  | none
  | closed
  | timeout
  | portReset
  | hubReset
deriving DecidableEq, Repr

/-- The conditions of a silence timer (R143); `running` holds the increments left. -/
inductive SilenceTimer where
  | notRunning
  | running (left : Nat)
  | suspended
deriving DecidableEq, Repr

/-- The session record (R136). -/
structure Session where
  isOpen : Bool
  epoch : Byte
  silence : Option Byte
  timer : SilenceTimer
  cause : CloseCause
deriving DecidableEq, Repr

/-! ## Responses and ports (chapter 8) -/

/-- The statuses (R178, R183). -/
inductive Status where
  | ok | busy | badRequest | badLength | badArg | noSession | wrongEpoch | alreadyOpen
  | held | notHolder | notOwner | inUse | full | empty | stale | channelOff
  | channelFault | wrongMode | noSuchZone | timeout | cancelled | nothingPending | sessionEnded
deriving DecidableEq, Repr

/-- The results a response carries (R178, R182). -/
inductive Results where
  | none
  | closeCause (c : CloseCause)
  | alreadyOpen (epoch : Byte) (silence : Option Byte)
  | holder (p : PortId)
  | heldResource (r : ResId) (p : PortId)
  | oldestSeq (seq : Half)
  | channelRecord (c : ChanId) (record : Channel) (now : Word) (holder : Option PortId)
  | times (receipt present : Word)
  | zoneCreated (z : ZoneId) (state : ZoneState)
  | zoneState (state : ZoneState)
  | zoneRecord (z : ZoneId) (record : Zone)
  | zoneList (zones : List (ZoneId × PortId × ZoneState))
  | captureSeq (seq : Half)
  | captureRecord (record : CaptureRecord)
  | recordsLeft (n : Nat)
  | captureStatus (fill : Nat) (next : Half) (policy : Policy) (subs : Vector (Option Subscription) 2) (lost : Half)
  | events (records : List EventRecord) (depth : Nat)
  | attention (enabled : Bool) (depth : Nat)
  | claimed (r : ResId) (stamp : Word)
  | claimList (claims : Vector (Option Claim) 14)
  | drive (d : Drive)
  | outRecord (holder : Option PortId) (line : OutLine)
  | opened (epoch : Byte) (cause : CloseCause)
  | depth (n : Nat)
  | ident (port : PortId)
  | portStatus (isOpen : Bool) (epoch : Byte) (cause : CloseCause) (crc framing overrun : Half) (receipt : Word)
      (cachedTag : Option Byte)
deriving DecidableEq, Repr

/-- A response (R164): the tag and the kind code of the request it answers, its status, its replay flag and its
results. -/
structure Response where
  tag : Byte
  status : Status
  replay : Bool
  kind : Half
  results : Results
deriving DecidableEq, Repr

/-- The receiver state with the frame under assembly (R157, R158). In CHECK the whole body is held, and the first CRC
byte once it is taken. -/
inductive Receiver where
  | hunt
  | length
  | body (len : Nat) (taken : List Byte)
  | check (body : List Byte) (high : Option Byte)
deriving DecidableEq, Repr

/-- The pending AWAIT with its timer (R157): `left` is the increments left. -/
structure Awaiting where
  tag : Byte
  timeout : Byte
  left : Nat
deriving DecidableEq, Repr

/-- The port record (R157). The port is EXECUTING exactly when `awaiting` is present, which is also when the AWAIT timer
runs (R167). The tag of the retry cache is the tag of the response it holds (R173). `waiting` are the responses not yet
begun, oldest first; `lrst` is whether LRST_n is at its active level. -/
structure Port where
  receiver : Receiver
  gapTimer : Option Nat
  awaiting : Option Awaiting
  cache : Option Response
  crcErrors : Half
  framingErrors : Half
  overruns : Half
  waiting : List Response
  sending : Option Response
  lrst : Bool
deriving DecidableEq, Repr

/-! ## The machine -/

/-- The whole hub, and the commands that wait. -/
structure State where
  timestamp : Word
  channels : Vector Channel 8
  zones : Vector (Option Zone) 32
  capture : Vector CaptureState 3
  capLevels : Vector Bool 2
  queues : Vector EventQueue 3
  claims : Vector (Option Claim) 14
  lines : Vector OutLine 6
  sessions : Vector Session 3
  ports : Vector Port 3
  pending : List Instr
deriving DecidableEq, Repr

/-- The reasons the machine stops with a fault: there are none, since no rule of the spec stops the part. A channel's
FAULT, link errors and refused requests are state and responses. -/
inductive Fault
deriving DecidableEq, Repr

/-- The reasons a command has no meaning. -/
inductive Refusal where
  /-- Raised by an arm of exec that has no meaning yet, with the row's mnemonic. Safe: nothing is claimed about the
  command. No arm of this model raises it. -/
  | notModelled (mnemonic : String)
deriving DecidableEq, Repr

/-! ## Values after power-on reset -/

/-- The channel record after power-on and HUB_RESET (R1), over the input levels that the pins show. -/
def Channel.atReset (levels : Levels) : Channel :=
  { mode := .off, modulus := 0, invert := false, gateUse := false, indexMark := false, state := .off,
    count := 0, turns := 0, referenced := false, wrapped := false, homing := false, mark := none,
    faultCount := 0, levels := levels }

/-- The capture state at OPEN, after teardown and after the resets (R65). -/
def CaptureState.fresh : CaptureState :=
  { ring := [], seqCounter := 0, policy := .keepOldest, lost := 0, lossReported := false,
    subs := Vector.replicate 2 none }

/-- The event queue at OPEN and after power-on (R89, R103, R106). -/
def EventQueue.fresh : EventQueue := { records := [], overflow := 0, enabled := true, attn := false }

/-- The defaults of a line with drive SAFE (R118, R130): the pin shows the safe level. -/
def OutLine.defaults (safe : Bool) : OutLine :=
  { polarity := .activeHigh, mode := .direct, direct := false, width := Config.defaultWidth,
    retrigger := .ignore, timer := none, drive := .safe, safe := safe, pin := safe }

/-- The session record after power-on (R136). -/
def Session.atReset : Session :=
  { isOpen := false, epoch := 0, silence := none, timer := .notRunning, cause := .none }

/-- The port record after power-on (R157), over the level of LRST_n. -/
def Port.atReset (lrst : Bool) : Port :=
  { receiver := .hunt, gapTimer := none, awaiting := none, cache := none, crcErrors := 0,
    framingErrors := 0, overruns := 0, waiting := [], sending := none, lrst := lrst }

/-- The state right after power-on reset. The spec gives every value but the levels of the pins: here every input,
capture line and strap is low and no LRST_n is asserted. DESIGN CHOICE (log entry 1), unsafe; POWER_ON_RESET takes the
levels as operands. -/
def State.reset : State :=
  { timestamp := 0
    channels := Vector.replicate 8 (Channel.atReset ⟨false, false, false, false⟩)
    zones := Vector.replicate 32 none
    capture := Vector.replicate 3 CaptureState.fresh
    capLevels := Vector.replicate 2 false
    queues := Vector.replicate 3 EventQueue.fresh
    claims := Vector.replicate 14 none
    lines := Vector.replicate 6 (OutLine.defaults false)
    sessions := Vector.replicate 3 Session.atReset
    ports := Vector.replicate 3 (Port.atReset false)
    pending := [] }

end Sys2Proof.Machine
end

