-- ==== Sys2Proof/Machine/Flags.lean ====
section
/-! DEFINITION. The counters, conditions and levels that the blocks compute: saturating counters, the attention
condition, the pin level of a line, the state a gate gives a channel, and the durations of timers. -/

namespace Sys2Proof.Machine

/-- A two-byte counter that stays at 65,535 once there (R72, R96, R162). -/
def satInc (n : Half) : Half := if n = 0xFFFF then n else n + 1

/-- The fault count, which stays at 255 once there (R13). -/
def satIncByte (n : Byte) : Byte := if n = 0xFF then n else n + 1

/-- The epoch after an OPEN: 1 more, skipping 0 (R140). -/
def nextEpoch (e : Byte) : Byte := if e = 0xFF then 1 else e + 1

/-- The condition under which ATTN_n is asserted (R102). -/
def attnCondition (isOpen enabled : Bool) (records : List EventRecord) : Bool :=
  isOpen && enabled && !records.isEmpty

/-- The level of a line's pin (R120). -/
def pinLevel (polarity : Polarity) (safe : Bool) (drive : Drive) : Bool :=
  match drive, polarity with
  | .safe, _ => safe
  | .active, .activeHigh => true
  | .active, .activeLow => false
  | .inactive, .activeHigh => false
  | .inactive, .activeLow => true

/-- The state that the gate gives a channel which is not OFF (R3, R12): HELD when gate_use is set and G is low. -/
def gateState (gateUse g : Bool) : ChanState := if gateUse && !g then .held else .counting

/-- The full duration of a session's silence timer, in increments (R143). -/
def Session.fullTime (x : Session) : Nat :=
  match x.silence with
  | some n => n.toNat * Config.tenMs
  | none => 0

/-- A timer one increment later: a running timer has one increment less to go, and stays due at 0 until its running out
is taken (R35). -/
def tickTimer (t : Option Nat) : Option Nat := t.map (· - 1)

end Sys2Proof.Machine
end

