-- ==== Sys2Proof/Decode.lean ====
section
/-! DEFINITION. The words of commands. spec/opcode_table.json gives no row bits, so decodeTableWord answers none. The
bodies of request frames (R163, R181) are decoded here into the request commands, and encoded again. -/

namespace Sys2Proof

/-! ## The rows of the table by words -/

/-- The command that a word spells by the bits of spec/opcode_table.json: the table gives bits to no row. -/
def decodeTableWord (_nbits _w : Nat) : Option Instr := none

/-! ## Byte order (R179): high byte first -/

/-- The bytes of a two-byte field as sent. -/
def halfBytes (x : Half) : List Byte := [x.extractLsb' 8 8, x.extractLsb' 0 8]
/-- The bytes of a four-byte field as sent. -/
def wordBytes (x : Word) : List Byte :=
  [x.extractLsb' 24 8, x.extractLsb' 16 8, x.extractLsb' 8 8, x.extractLsb' 0 8]
/-- The two-byte field that two bytes spell. -/
def bytesHalf (hi lo : Byte) : Half := hi ++ lo
/-- The four-byte field that four bytes spell. -/
def bytesWord (b3 b2 b1 b0 : Byte) : Word := b3 ++ b2 ++ b1 ++ b0

/-! ## The CRC of a frame (R180) -/

/-- One bit into the CRC register: the steps 1 to 3 of R180. -/
def crcBit (reg : Half) (bit : Bool) : Half :=
  if reg.msb = bit then reg <<< 1 else (reg <<< 1) ^^^ 0x1021

/-- One byte into the CRC register, most significant bit first. -/
def crcByte (reg : Half) (b : Byte) : Half :=
  [7, 6, 5, 4, 3, 2, 1, 0].foldl (fun r (n : Nat) => crcBit r (b.getLsbD n)) reg

/-- The remainder over a list of bytes, the register starting at 0xFFFF. -/
def crc16 (bytes : List Byte) : Half := bytes.foldl crcByte 0xFFFF

/-- The length byte of a frame with this body. -/
def lengthByte (body : List Byte) : Byte := BitVec.ofNat 8 body.length

/-- The CRC of a frame, over its length byte and its body. -/
def frameCrc (body : List Byte) : Half := crc16 (lengthByte body :: body)

/-- The bytes of a frame after its sync byte, with the CRC given (R179). -/
def afterSync (body : List Byte) (crc : Half) : List Byte := lengthByte body :: body ++ halfBytes crc

/-- A frame as it stands on a line (R179). -/
def frameBytes (body : List Byte) : List Byte := Config.syncByte :: afterSync body (frameCrc body)

/-! ## Kind codes and body lengths (R181) -/

/-- The code of a request kind: its high byte is the chapter, its low byte the number in the chapter. -/
def Kind.code : Kind → Half
  | .chanConfig => 0x0101
  | .chanPreset => 0x0102
  | .chanHome => 0x0103
  | .chanClearFault => 0x0104
  | .chanRead => 0x0105
  | .timeRead => 0x0201
  | .zoneCreate => 0x0301
  | .zoneArm => 0x0302
  | .zoneDisarm => 0x0303
  | .zoneDelete => 0x0304
  | .zoneRead => 0x0305
  | .zoneList => 0x0306
  | .capture => 0x0401
  | .capSubscribe => 0x0402
  | .capPolicy => 0x0403
  | .capFetch => 0x0404
  | .capAck => 0x0405
  | .capStatus => 0x0406
  | .evtRead => 0x0501
  | .evtAttn => 0x0502
  | .claim => 0x0601
  | .release => 0x0602
  | .claimList => 0x0603
  | .outMode => 0x0604
  | .outSet => 0x0605
  | .outRead => 0x0606
  | .openSession => 0x0701
  | .closeSession => 0x0702
  | .nop => 0x0703
  | .hubReset => 0x0704
  | .await => 0x0801
  | .cancel => 0x0802
  | .ident => 0x0803
  | .portStatus => 0x0804

/-- The body length R181 fixes for a kind. -/
def Kind.bodyLen : Kind → Nat
  | .chanConfig => 13
  | .chanPreset => 11
  | .chanHome => 6
  | .chanClearFault => 5
  | .chanRead => 5
  | .timeRead => 4
  | .zoneCreate => 23
  | .zoneArm => 5
  | .zoneDisarm => 5
  | .zoneDelete => 5
  | .zoneRead => 5
  | .zoneList => 4
  | .capture => 5
  | .capSubscribe => 7
  | .capPolicy => 5
  | .capFetch => 4
  | .capAck => 6
  | .capStatus => 4
  | .evtRead => 5
  | .evtAttn => 5
  | .claim => 5
  | .release => 5
  | .claimList => 4
  | .outMode => 10
  | .outSet => 6
  | .outRead => 5
  | .openSession => 5
  | .closeSession => 4
  | .nop => 4
  | .hubReset => 4
  | .await => 5
  | .cancel => 4
  | .ident => 4
  | .portStatus => 4

/-- The kinds R181 lists, in its order. -/
def Kind.all : List Kind :=
  [.chanConfig, .chanPreset, .chanHome, .chanClearFault, .chanRead, .timeRead,
   .zoneCreate, .zoneArm, .zoneDisarm, .zoneDelete, .zoneRead, .zoneList,
   .capture, .capSubscribe, .capPolicy, .capFetch, .capAck, .capStatus, .evtRead, .evtAttn,
   .claim, .release, .claimList, .outMode, .outSet, .outRead,
   .openSession, .closeSession, .nop, .hubReset, .await, .cancel, .ident, .portStatus]

/-- The kind a code names, none for a code R181 does not list. -/
def Kind.ofCode (code : Half) : Option Kind := Kind.all.find? fun k => k.code == code

/-! ## Request bodies (R181) -/

/-- The command that an accepted frame's body spells on a port, total on any bytes. A parameter byte past the body's
end reads 0; it is never used, since a body of the wrong length is answered BAD_LENGTH before its parameters are
looked at (R166). -/
def decodeRequest (p : PortId) (body : List Byte) : Instr :=
  let b (n : Nat) : Byte := body.getD n 0
  let half (n : Nat) : Half := bytesHalf (b n) (b (n + 1))
  let word (n : Nat) : Word := bytesWord (b n) (b (n + 1)) (b (n + 2)) (b (n + 3))
  let h : Head := ⟨p, b 0, b 1, body.length⟩
  match Kind.ofCode (half 2) with
  | none => .unknownRequestKind h (half 2)
  | some .chanConfig => .chanConfig h (b 4) (b 5) (word 6) (b 10) (b 11) (b 12)
  | some .chanPreset => .chanPreset h (b 4) (word 5) (half 9)
  | some .chanHome => .chanHome h (b 4) (b 5)
  | some .chanClearFault => .chanClearFault h (b 4)
  | some .chanRead => .chanRead h (b 4)
  | some .timeRead => .timeRead h
  | some .zoneCreate =>
    .zoneCreate h ⟨b 4, word 5, word 9, half 13, b 15, b 16, b 17, b 18, b 19, b 20, b 21, b 22⟩
  | some .zoneArm => .zoneArm h (b 4)
  | some .zoneDisarm => .zoneDisarm h (b 4)
  | some .zoneDelete => .zoneDelete h (b 4)
  | some .zoneRead => .zoneRead h (b 4)
  | some .zoneList => .zoneList h
  | some .capture => .capture h (b 4)
  | some .capSubscribe => .capSubscribe h (b 4) (b 5) (b 6)
  | some .capPolicy => .capPolicy h (b 4)
  | some .capFetch => .capFetch h
  | some .capAck => .capAck h (half 4)
  | some .capStatus => .capStatus h
  | some .evtRead => .evtRead h (b 4)
  | some .evtAttn => .evtAttn h (b 4)
  | some .claim => .claim h (b 4)
  | some .release => .release h (b 4)
  | some .claimList => .claimList h
  | some .outMode => .outMode h (b 4) (b 5) (b 6) (half 7) (b 9)
  | some .outSet => .outSet h (b 4) (b 5)
  | some .outRead => .outRead h (b 4)
  | some .openSession => .openSession h (b 4)
  | some .closeSession => .closeSession h
  | some .nop => .nop h
  | some .hubReset => .hubReset h
  | some .await => .await h (b 4)
  | some .cancel => .cancel h
  | some .ident => .ident h
  | some .portStatus => .portStatus h

/-- The header and kind bytes that open a body (R181). -/
def headBytes (h : Head) (code : Half) : List Byte := h.tag :: h.epoch :: halfBytes code

/-- The body of a request whose length is the one its kind fixes, none for a command that is no request. -/
def encodeRequest : Instr → Option (List Byte)
  | .chanConfig h c m md iv gu im =>
    some (headBytes h Kind.chanConfig.code ++ [c, m] ++ wordBytes md ++ [iv, gu, im])
  | .chanPreset h c n t => some (headBytes h Kind.chanPreset.code ++ [c] ++ wordBytes n ++ halfBytes t)
  | .chanHome h c x => some (headBytes h Kind.chanHome.code ++ [c, x])
  | .chanClearFault h c => some (headBytes h Kind.chanClearFault.code ++ [c])
  | .chanRead h c => some (headBytes h Kind.chanRead.code ++ [c])
  | .timeRead h => some (headBytes h Kind.timeRead.code)
  | .zoneCreate h z =>
    some (headBytes h Kind.zoneCreate.code ++ [z.channel] ++ wordBytes z.low ++ wordBytes z.high
      ++ halfBytes z.hysteresis ++ [z.enterEvent, z.enterMask, z.enterTrigger]
      ++ [z.exitEvent, z.exitMask, z.exitTrigger] ++ [z.linkLine, z.linkFollow])
  | .zoneArm h z => some (headBytes h Kind.zoneArm.code ++ [z])
  | .zoneDisarm h z => some (headBytes h Kind.zoneDisarm.code ++ [z])
  | .zoneDelete h z => some (headBytes h Kind.zoneDelete.code ++ [z])
  | .zoneRead h z => some (headBytes h Kind.zoneRead.code ++ [z])
  | .zoneList h => some (headBytes h Kind.zoneList.code)
  | .capture h m => some (headBytes h Kind.capture.code ++ [m])
  | .capSubscribe h l e m => some (headBytes h Kind.capSubscribe.code ++ [l, e, m])
  | .capPolicy h x => some (headBytes h Kind.capPolicy.code ++ [x])
  | .capFetch h => some (headBytes h Kind.capFetch.code)
  | .capAck h q => some (headBytes h Kind.capAck.code ++ halfBytes q)
  | .capStatus h => some (headBytes h Kind.capStatus.code)
  | .evtRead h n => some (headBytes h Kind.evtRead.code ++ [n])
  | .evtAttn h x => some (headBytes h Kind.evtAttn.code ++ [x])
  | .claim h r => some (headBytes h Kind.claim.code ++ [r])
  | .release h r => some (headBytes h Kind.release.code ++ [r])
  | .claimList h => some (headBytes h Kind.claimList.code)
  | .outMode h l m pol w rt =>
    some (headBytes h Kind.outMode.code ++ [l, m, pol] ++ halfBytes w ++ [rt])
  | .outSet h l v => some (headBytes h Kind.outSet.code ++ [l, v])
  | .outRead h l => some (headBytes h Kind.outRead.code ++ [l])
  | .openSession h x => some (headBytes h Kind.openSession.code ++ [x])
  | .closeSession h => some (headBytes h Kind.closeSession.code)
  | .nop h => some (headBytes h Kind.nop.code)
  | .hubReset h => some (headBytes h Kind.hubReset.code)
  | .await h x => some (headBytes h Kind.await.code ++ [x])
  | .cancel h => some (headBytes h Kind.cancel.code)
  | .ident h => some (headBytes h Kind.ident.code)
  | .portStatus h => some (headBytes h Kind.portStatus.code)
  | .powerOnReset _ => none
  | .abPairTransition _ _ => none
  | .indexEdge _ => none
  | .gateChange _ => none
  | .captureLineEdge _ => none
  | .lrstNAsserted _ => none
  | .lrstNReleased _ => none
  | .crcFailure _ _ _ => none
  | .framingError _ _ => none
  | .frameGapTimeout _ => none
  | .pulseTimerExpiry _ => none
  | .silenceTimeout _ => none
  | .awaitTimeout _ => none
  | .awaitEndedByStore _ => none
  | .responseSent _ => none
  | .timestampIncrement => none
  | .frameByteTaken _ _ => none
  | .unknownRequestKind _ _ => none

/-- The kind and header of a request command, none for the other commands. -/
def Instr.request? : Instr → Option (Kind × Head)
  | .chanConfig h _ _ _ _ _ _ => some (.chanConfig, h)
  | .chanPreset h _ _ _ => some (.chanPreset, h)
  | .chanHome h _ _ => some (.chanHome, h)
  | .chanClearFault h _ => some (.chanClearFault, h)
  | .chanRead h _ => some (.chanRead, h)
  | .timeRead h => some (.timeRead, h)
  | .zoneCreate h _ => some (.zoneCreate, h)
  | .zoneArm h _ => some (.zoneArm, h)
  | .zoneDisarm h _ => some (.zoneDisarm, h)
  | .zoneDelete h _ => some (.zoneDelete, h)
  | .zoneRead h _ => some (.zoneRead, h)
  | .zoneList h => some (.zoneList, h)
  | .capture h _ => some (.capture, h)
  | .capSubscribe h _ _ _ => some (.capSubscribe, h)
  | .capPolicy h _ => some (.capPolicy, h)
  | .capFetch h => some (.capFetch, h)
  | .capAck h _ => some (.capAck, h)
  | .capStatus h => some (.capStatus, h)
  | .evtRead h _ => some (.evtRead, h)
  | .evtAttn h _ => some (.evtAttn, h)
  | .claim h _ => some (.claim, h)
  | .release h _ => some (.release, h)
  | .claimList h => some (.claimList, h)
  | .outMode h _ _ _ _ _ => some (.outMode, h)
  | .outSet h _ _ => some (.outSet, h)
  | .outRead h _ => some (.outRead, h)
  | .openSession h _ => some (.openSession, h)
  | .closeSession h => some (.closeSession, h)
  | .nop h => some (.nop, h)
  | .hubReset h => some (.hubReset, h)
  | .await h _ => some (.await, h)
  | .cancel h => some (.cancel, h)
  | .ident h => some (.ident, h)
  | .portStatus h => some (.portStatus, h)
  | .powerOnReset _ => none
  | .abPairTransition _ _ => none
  | .indexEdge _ => none
  | .gateChange _ => none
  | .captureLineEdge _ => none
  | .lrstNAsserted _ => none
  | .lrstNReleased _ => none
  | .crcFailure _ _ _ => none
  | .framingError _ _ => none
  | .frameGapTimeout _ => none
  | .pulseTimerExpiry _ => none
  | .silenceTimeout _ => none
  | .awaitTimeout _ => none
  | .awaitEndedByStore _ => none
  | .responseSent _ => none
  | .timestampIncrement => none
  | .frameByteTaken _ _ => none
  | .unknownRequestKind _ _ => none

end Sys2Proof
end

