-- ==== Sys2Proof/Machine/Operands.lean ====
section
/-! DEFINITION. The parameter fields of requests: the codes of R183 and the ranges of R186. Each function answers none
for a value outside its codes. -/

namespace Sys2Proof.Machine

/-- A channel number, 0 to 7 (R19). -/
def chanOf (b : Byte) : Option ChanId := if h : b.toNat < 8 then some ⟨b.toNat, h⟩ else none
/-- An output line number, 0 to 5 (R131). -/
def lineOf (b : Byte) : Option LineId := if h : b.toNat < 6 then some ⟨b.toNat, h⟩ else none
/-- A capture line number, 0 or 1 (R79). -/
def capOf (b : Byte) : Option CapId := if h : b.toNat < 2 then some ⟨b.toNat, h⟩ else none
/-- A resource id, 0 to 13 (R109). -/
def resOf (b : Byte) : Option ResId := if h : b.toNat < 14 then some ⟨b.toNat, h⟩ else none
/-- A zone id, 0 to 31 (R53). -/
def zoneOf (b : Byte) : Option ZoneId := if h : b.toNat < 32 then some ⟨b.toNat, h⟩ else none

/-- A yes/no or set/clear byte (R186). -/
def yesNoOf (b : Byte) : Option Bool := if b = 0 then some false else if b = 1 then some true else none
/-- A counting mode (R183). -/
def chanModeOf (b : Byte) : Option ChanMode :=
  if b = 0 then some .off else if b = 1 then some .quad
  else if b = 2 then some .eventDir else if b = 3 then some .eventUp else none
/-- A modulus: 0, or 2 to 16,777,216 (R20). -/
def modulusOf (w : Word) : Option Nat :=
  if w.toNat = 0 ∨ (2 ≤ w.toNat ∧ w.toNat ≤ Config.maxModulus) then some w.toNat else none
/-- A subscription edge in a request (R183). -/
def edgeOf (b : Byte) : Option SubEdge :=
  if b = 1 then some .rising else if b = 2 then some .falling else if b = 3 then some .both else none
/-- A ring policy (R183). -/
def policyOf (b : Byte) : Option Policy :=
  if b = 0 then some .keepOldest else if b = 1 then some .keepNewest else none
/-- An output mode (R183). -/
def outModeOf (b : Byte) : Option OutMode :=
  if b = 0 then some .direct else if b = 1 then some .follow else if b = 2 then some .pulse else none
/-- A polarity (R183). -/
def polarityOf (b : Byte) : Option Polarity :=
  if b = 0 then some .activeHigh else if b = 1 then some .activeLow else none
/-- A retrigger policy (R183). -/
def retriggerOf (b : Byte) : Option Retrigger :=
  if b = 0 then some .ignore else if b = 1 then some .restart else none
/-- The link line of a ZONE_CREATE (R181, R186): 0xFF is an absent link, the follow byte then not examined. The outer
none is a value outside the codes. -/
def linkOf (line follow : Byte) : Option (Option Link) :=
  if line = 0xFF then some none
  else
    match lineOf line, yesNoOf follow with
    | some k, some f => some (some ⟨k, f⟩)
    | _, _ => none
/-- An action set (R54, R186). -/
def actionSetOf (event mask trigger : Byte) : Option ActionSet :=
  match yesNoOf event, yesNoOf trigger with
  | some e, some t => some ⟨e, mask, t⟩
  | _, _ => none

/-- The levels of a channel's inputs among the pins. -/
def pinLevels (pins : Pins) (c : ChanId) : Levels :=
  ⟨pins.a.getLsbD c, pins.b.getLsbD c, pins.i.getLsbD c, pins.g.getLsbD c⟩

/-- The resource id of a channel (R107). -/
def chanRes (c : ChanId) : ResId := ⟨c.val, by omega⟩
/-- The resource id of an output line (R107). -/
def lineRes (k : LineId) : ResId := ⟨8 + k.val, by omega⟩
/-- The output line that a resource id names, none for a channel (R107). -/
def resLine (r : ResId) : Option LineId := if h : 8 ≤ r.val then some ⟨r.val - 8, by omega⟩ else none

/-- A channel mask names CHn by its bit n (R37). -/
def maskNames (mask : Byte) (c : ChanId) : Bool := mask.getLsbD c

/-- Levels after one transition of the A/B pair (R4). -/
def Levels.changed (x : Levels) (change : PairChange) : Levels :=
  match change with
  | .aOnly => { x with a := !x.a }
  | .bOnly => { x with b := !x.b }
  | .both => { x with a := !x.a, b := !x.b }

end Sys2Proof.Machine
end

