-- ==== Sys2Proof/Machine/Ops.lean ====
section
/-! DEFINITION. The operations the commands share: one home for each register, table, queue, ring and line; storing and
broadcasting events; captures; zone evaluation; freeing claims; teardown; answering and admitting requests. -/

namespace Sys2Proof.Machine

/-! ## One home for each piece of state -/

def State.setTimestamp (s : State) (t : Word) : State := { s with timestamp := t }
def State.setChannel (s : State) (c : ChanId) (x : Channel) : State :=
  { s with channels := s.channels.set c x }
def State.setZones (s : State) (z : Vector (Option Zone) 32) : State := { s with zones := z }
def State.setZone (s : State) (z : ZoneId) (x : Option Zone) : State := s.setZones (s.zones.set z x)
def State.setCapture (s : State) (p : PortId) (x : CaptureState) : State :=
  { s with capture := s.capture.set p x }
def State.setCapLevel (s : State) (n : CapId) (x : Bool) : State :=
  { s with capLevels := s.capLevels.set n x }
def State.setQueue (s : State) (p : PortId) (x : EventQueue) : State :=
  { s with queues := s.queues.set p x }
def State.setClaim (s : State) (r : ResId) (x : Option Claim) : State :=
  { s with claims := s.claims.set r x }
def State.setLine (s : State) (k : LineId) (x : OutLine) : State := { s with lines := s.lines.set k x }
def State.setSession (s : State) (p : PortId) (x : Session) : State :=
  { s with sessions := s.sessions.set p x }
def State.setPort (s : State) (p : PortId) (x : Port) : State := { s with ports := s.ports.set p x }
def State.setPending (s : State) (q : List Instr) : State := { s with pending := q }

/-- A table with each of its rows changed in the same way. -/
def mapRows {α : Type} {n : Nat} (f : α → α) (v : Vector α n) : Vector α n :=
  ⟨(v.toList.map f).toArray, by simp⟩

/-- The ports in ascending order. -/
def portIds : List PortId := [0, 1, 2]

/-! ## Event queues (chapter 5) -/

/-- The ATTN_n line re-computed from the condition of R102. -/
def EventQueue.attend (q : EventQueue) (isOpen : Bool) : EventQueue :=
  { q with attn := attnCondition isOpen q.enabled q.records }

/-- A record handed to a queue: appended when there is room (R95), else counted (R96). -/
def EventQueue.store (q : EventQueue) (isOpen : Bool) (r : EventRecord) : EventQueue :=
  if q.records.length < Config.queueSize then
    ({ q with records := q.records ++ [r] } : EventQueue).attend isOpen
  else { q with overflow := satInc q.overflow }

/-- An event posted to one session, with the stamp of the happening (R31). A session that is CLOSED is not a recipient
(R92). -/
def State.post (s : State) (p : PortId) (e : Event) : State :=
  if s.sessions[p].isOpen then s.setQueue p (s.queues[p].store true ⟨e, s.timestamp⟩) else s

/-- An event posted to every open session, or to every open session but one (R92, R94). -/
def State.broadcast (s : State) (except : Option PortId) (e : Event) : State :=
  portIds.foldl (fun t p => if except = some p then t else t.post p e) s

/-- Several events posted to one session in their order (R93). -/
def State.postAll (s : State) (p : PortId) (es : List Event) : State := es.foldl (fun t e => t.post p e) s

/-! ## Captures (chapter 4) -/

/-- A channel's entry in a capture, read at its instant (R68). -/
def State.entryOf (s : State) (c : ChanId) : ChannelEntry :=
  let x := s.channels[c]
  ⟨c, x.state, x.count, x.turns, x.referenced⟩

/-- The entries of a capture, ascending in channel number (R67). -/
def State.entriesOf (s : State) (mask : Byte) : List ChannelEntry :=
  ((List.finRange 8).filter (maskNames mask)).map s.entryOf

/-- A record without its number yet: the number is given at the store (R70). -/
def CaptureState.append (x : CaptureState) (r : CaptureRecord) : CaptureState :=
  { x with ring := x.ring ++ [{ r with seq := x.seqCounter }], seqCounter := x.seqCounter + 1 }

/-- A loss counted, and CAPTURE_LOST when the loss-reported flag was clear (R72, R73). -/
def CaptureState.lose (x : CaptureState) : CaptureState × List Event :=
  let n := satInc x.lost
  ({ x with lost := n, lossReported := true }, if x.lossReported then [] else [.captureLost n])

/-- What a capture does to the ring it meets: the state after, the events posted in their order, and the number given if
it was stored (R71 to R73). -/
def CaptureState.take (x : CaptureState) (r : CaptureRecord) : CaptureState × List Event × Option Half :=
  if x.ring.length < Config.ringSize then (x.append r, [.captureReady x.seqCounter], some x.seqCounter)
  else
    match x.policy with
    | .keepNewest =>
      let (y, es) := ({ x with ring := x.ring.tail } : CaptureState).lose
      (y.append r, es ++ [.captureReady x.seqCounter], some x.seqCounter)
    | .keepOldest =>
      if r.cause = .request then (x, [], none)
      else
        let (y, es) := x.lose
        (y, es, none)

/-- A capture taken into a session's ring at this instant (R69, R71 to R73): the state after, and the number given if it
was stored. -/
def State.takeCapture (s : State) (p : PortId) (cause : CaptureCause) (mask : Byte) : State × Option Half :=
  let (x, es, seq) := s.capture[p].take ⟨0, cause, s.timestamp, mask, s.entriesOf mask⟩
  ((s.setCapture p x).postAll p es, seq)

/-! ## Output lines (chapter 6) -/

/-- A line with a drive set, its pin following (R120). -/
def OutLine.driven (l : OutLine) (d : Drive) : OutLine :=
  { l with drive := d, pin := pinLevel l.polarity l.safe d }

/-- A trigger at a line in PULSE mode starts a pulse or acts on the running one; in the other modes it is discarded
(R123, R126, R127). -/
def OutLine.triggered (l : OutLine) : OutLine :=
  match l.mode, l.timer, l.retrigger with
  | .pulse, none, _ => { l with timer := some l.width.toNat }.driven .active
  | .pulse, some _, .restart => { l with timer := some l.width.toNat }
  | .pulse, some _, .ignore => l
  | .direct, _, _ => l
  | .follow, _, _ => l

/-- The drive of the direct level (R123). -/
def OutLine.directDrive (l : OutLine) : Drive := if l.direct then .active else .inactive

/-- Whether a line's claim entry is held. -/
def State.lineHeld (s : State) (k : LineId) : Bool := s.claims[lineRes k].isSome

/-- A zone is one of a line's following zones, armed and INSIDE (R124). -/
def Zone.shows (z : Zone) (k : LineId) : Bool :=
  z.link == some ⟨k, true⟩ && z.armed && z.state == .inside

/-- The drive a line in FOLLOW mode takes from its following zones (R124). -/
def State.followDrive (s : State) (k : LineId) : Drive :=
  if s.zones.toList.any (fun o => o.any (·.shows k)) then .active else .inactive

/-- A re-computation request: a held line in FOLLOW mode sets its drive from its following zones, any other line ignores
it (R121, R124). -/
def State.recompute (s : State) (k : LineId) : State :=
  if s.lineHeld k ∧ s.lines[k].mode = .follow then s.setLine k (s.lines[k].driven (s.followDrive k)) else s

/-- A trigger handed to a line; a line whose entry is free receives none (R119, R126). -/
def State.trigger (s : State) (k : LineId) : State :=
  if s.lineHeld k then s.setLine k s.lines[k].triggered else s

/-- The re-computation a link asks for when its follow flag is yes (R50). -/
def State.recomputeLink (s : State) (link : Option Link) : State :=
  match link with
  | some l => if l.follow then s.recompute l.line else s
  | none => s

/-! ## Zone evaluation (chapter 3) -/

/-- The width of a window on a modulus channel (R42). -/
def windowWidth (M : Nat) (low high : Int) : Int := (high - low) % (M : Int) + 1

/-- A count inside a window (R41, R42); modulus 0 is a linear channel. -/
def inWindow (M : Nat) (low high p : Int) : Bool :=
  if M = 0 then decide (low ≤ p ∧ p ≤ high)
  else decide ((p - low) % (M : Int) < windowWidth M low high)

/-- The exit condition of a window with hysteresis h (R41, R43). -/
def exitHolds (M : Nat) (low high : Int) (h : Nat) (p : Int) : Bool :=
  if M = 0 then decide (p < low - h ∨ p > high + h)
  else !inWindow M low high p
    && decide ((h : Int) + 1 ≤ (p - high) % (M : Int) ∧ (h : Int) + 1 ≤ (low - p) % (M : Int))

/-- The transitions of a zone on a step (R45). -/
inductive Transition where
  | entry
  | exit
deriving DecidableEq, Repr

/-- The transition a zone makes on a step to a count (R45). -/
def Zone.onStep (z : Zone) (M : Nat) (p : Int) : Option Transition :=
  match z.state with
  | .idle => none
  | .outside => if inWindow M z.low z.high p then some .entry else none
  | .inside => if exitHolds M z.low z.high z.hysteresis p then some .exit else none

/-- A zone after a transition, the entry count taken (R45, R47). -/
def Zone.moved (z : Zone) (t : Transition) : Zone :=
  match t with
  | .entry => { z with state := .inside, entryCount := z.entryCount + 1 }
  | .exit => { z with state := .outside }

/-- The state that a raw evaluation gives (R44). -/
def Zone.rawState (z : Zone) (M : Nat) (p : Int) : ZoneState :=
  if inWindow M z.low z.high p then .inside else .outside

/-- The transition of a slot on a step of a channel: none for a free slot and for a zone of another channel (R45). -/
def slotMove (c : ChanId) (M : Nat) (p : Int) (o : Option Zone) : Option Transition :=
  match o with
  | some z => if z.channel = c then z.onStep M p else none
  | none => none

/-- A slot after the transition the step gives it. -/
def slotMoved (c : ChanId) (M : Nat) (p : Int) (o : Option Zone) : Option Zone :=
  match slotMove c M p o with
  | some t => o.map (·.moved t)
  | none => o

/-- The new state of a slot at a discontinuity of a channel, none when the slot does not change (R51). -/
def slotResync (c : ChanId) (M : Nat) (p : Int) (o : Option Zone) : Option ZoneState :=
  match o with
  | some z => if z.channel = c ∧ z.armed ∧ z.rawState M p ≠ z.state then some (z.rawState M p) else none
  | none => none

/-- A slot after a discontinuity. -/
def slotResynced (c : ChanId) (M : Nat) (p : Int) (o : Option Zone) : Option Zone :=
  match slotResync c M p o with
  | some st => o.map (fun z => { z with state := st })
  | none => o

/-- The slots that an evaluation changes, with what it found, in ascending zone id. -/
def State.slotsWith {α : Type} (s : State) (f : Option Zone → Option α) : List (ZoneId × α) :=
  (List.finRange 32).filterMap fun z => (f s.zones[z]).map fun a => (z, a)

/-- The action set a transition takes (R48). -/
def Zone.actionSet (z : Zone) (t : Transition) : ActionSet :=
  match t with
  | .entry => z.onEnter
  | .exit => z.onExit

/-- The event of a transition (R48). -/
def transitionEvent (t : Transition) (z : ZoneId) (count turns : Int) : Event :=
  match t with
  | .entry => .zoneEnter z count turns
  | .exit => .zoneExit z count turns

/-- The cause of the capture of a transition (R49, R78). -/
def transitionCause (t : Transition) (z : ZoneId) : CaptureCause :=
  match t with
  | .entry => .zoneEnter z
  | .exit => .zoneExit z

/-- The event action (R48). -/
def State.actEvent (s : State) (z : ZoneId) (x : Zone) (t : Transition) : State :=
  if (x.actionSet t).event then
    s.post x.owner (transitionEvent t z s.channels[x.channel].count s.channels[x.channel].turns)
  else s

/-- The capture action (R49). -/
def State.actCapture (s : State) (z : ZoneId) (x : Zone) (t : Transition) : State :=
  if (x.actionSet t).mask = 0 then s
  else (s.takeCapture x.owner (transitionCause t z) (x.actionSet t).mask).1

/-- The link action (R50): the trigger, then the re-computation. -/
def State.actLink (s : State) (x : Zone) (t : Transition) : State :=
  match x.link with
  | none => s
  | some l =>
    let s1 := if (x.actionSet t).trigger then s.trigger l.line else s
    if l.follow then s1.recompute l.line else s1

/-- The actions of one zone's transition, taken whole in the order of R48 to R50. -/
def State.takeActions (s : State) (m : ZoneId × Transition) : State :=
  match s.zones[m.1] with
  | none => s
  | some x => ((s.actEvent m.1 x m.2).actCapture m.1 x m.2).actLink x m.2

/-- The evaluation of a step of a channel whose new count is in place (R45, R46): every state and entry count first, then
the actions zone by zone in ascending zone id. -/
def State.zoneStep (s : State) (c : ChanId) : State :=
  let x := s.channels[c]
  let moves := s.slotsWith (slotMove c x.modulus x.count)
  moves.foldl State.takeActions (s.setZones (mapRows (slotMoved c x.modulus x.count) s.zones))

/-- What one changed zone of a discontinuity gives: ZONE_RESYNC to its owner and the re-computation of its line (R51). -/
def State.resyncZone (s : State) (m : ZoneId × ZoneState) : State :=
  match s.zones[m.1] with
  | none => s
  | some x => (s.post x.owner (.zoneResync m.1 m.2)).recomputeLink x.link

/-- The evaluation of a discontinuity of a channel whose new count is in place (R51, R52). -/
def State.discontinuity (s : State) (c : ChanId) : State :=
  let x := s.channels[c]
  let changes := s.slotsWith (slotResync c x.modulus x.count)
  changes.foldl State.resyncZone (s.setZones (mapRows (slotResynced c x.modulus x.count) s.zones))

/-- Whether any zone, of any owner, names a channel (R20). -/
def State.zonesOn (s : State) (c : ChanId) : Bool := s.zones.toList.any fun o => o.any (·.channel == c)

/-- Whether any zone links to a line (R111). -/
def State.zonesLinked (s : State) (k : LineId) : Bool :=
  s.zones.toList.any fun o => o.any fun z => z.link.any (·.line == k)

/-! ## Claims (chapter 6) -/

/-- The holder of an entry, none when it is free. -/
def State.holder (s : State) (r : ResId) : Option PortId := s.claims[r].map (·.holder)

/-- A freed line's return to its safe level and its defaults (R130, R135). -/
def State.releaseLine (s : State) (r : ResId) : State :=
  match resLine r with
  | some k => s.setLine k (OutLine.defaults s.lines[k].safe)
  | none => s

/-- An entry freed by RELEASE or teardown, with its line and its CLAIM_FREED (R112, R113, R116). -/
def State.freeClaim (s : State) (former : PortId) (r : ResId) : State :=
  ((s.setClaim r none).releaseLine r).broadcast (some former) (.claimFreed r)

/-! ## Teardown (chapter 7) -/

/-- A slot without the zones of a departing session (R62). -/
def withoutOwner (p : PortId) (o : Option Zone) : Option Zone :=
  o.filter fun z => z.owner != p

/-- The freeing of every entry a session holds, in ascending resource id (R116). -/
def State.freeClaims (s : State) (p : PortId) : State :=
  (List.finRange 14).foldl (fun t r => if t.holder r = some p then t.freeClaim p r else t) s

/-- A queue emptied, its overflow count 0 and ATTN_n deasserted; the attention enable stays (R104, R105). -/
def EventQueue.emptied (q : EventQueue) : EventQueue :=
  { q with records := [], overflow := 0, attn := false }

/-- The teardown of a session that is OPEN, in the order of R148. -/
def State.teardown (s : State) (p : PortId) (cause : CloseCause) : State :=
  let s1 := s.setZones (mapRows (withoutOwner p) s.zones)
  let s2 := s1.freeClaims p
  let s3 := s2.setCapture p CaptureState.fresh
  let s4 := s3.setQueue p s3.queues[p].emptied
  let s5 := s4.setPort p { s4.ports[p] with cache := none }
  s5.setSession p { s5.sessions[p] with isOpen := false, timer := .notRunning, cause := cause }

/-! ## Responses (chapter 8) -/

/-- A response joins the tail of the transmit list; on an idle transmit line its sending begins at once (R164, DEDUCED,
log entry 5). -/
def Port.send (x : Port) (r : Response) : Port :=
  if x.sending = none ∧ x.waiting = [] then { x with sending := some r }
  else { x with waiting := x.waiting ++ [r] }

/-- A response sent and not stored in the retry cache. -/
def State.send (s : State) (p : PortId) (r : Response) : State := s.setPort p (s.ports[p].send r)

/-- A response sent, and stored in the retry cache when the session is OPEN (R173). -/
def State.answer (s : State) (p : PortId) (tag : Byte) (kind : Half) (status : Status) (results : Results) : State :=
  let r : Response := ⟨tag, status, false, kind, results⟩
  if s.sessions[p].isOpen then s.setPort p { s.ports[p].send r with cache := some r }
  else s.send p r

/-! ## The AWAIT in flight (chapter 8) -/

/-- A port back to IDLE, its AWAIT timer stopped, and the silence timer started with its full duration (R144, R167). -/
def State.stopAwait (s : State) (p : PortId) : State :=
  (s.setPort p { s.ports[p] with awaiting := none }).setSession p
    { s.sessions[p] with timer := .running s.sessions[p].fullTime }

/-- The AWAIT in flight on a port answered and the answer cached, with the effects of its ending (R169, R170); nothing on
an IDLE port. -/
def State.endAwait (s : State) (p : PortId) (status : Status) (results : Results) : State :=
  match s.ports[p].awaiting with
  | some a => (s.stopAwait p).answer p a.tag Kind.await.code status results
  | none => s

/-- The AWAIT of a port ended by the records its queue now holds (R169). -/
def State.endAwaitByStore (s : State) (p : PortId) : State :=
  s.endAwait p .ok (.depth s.queues[p].records.length)

/-- The end of a happening: each port whose queue the happening has stored records into ends its AWAIT, the depth counting
all of them (R95, R169). -/
def State.notify (before after : State) : State :=
  portIds.foldl
    (fun t p => if before.queues[p].records.length < after.queues[p].records.length then t.endAwaitByStore p else t)
    after

/-- A happening taken whole: its effects, then the AWAITs its stores end. -/
def State.happening (s : State) (f : State → State) : State := s.notify (f s)

/-! ## Taking a request (R159, R165, R166) -/

/-- A response's status and results, none for an AWAIT that waits. -/
abbrev Reply := Option (Status × Results)

/-- A refusal without results, which leaves the state unchanged (R178). -/
def State.refuse (s : State) (status : Status) : State × Reply := (s, some (status, .none))

/-- A request answered OK without results. -/
def State.done (s : State) : State × Reply := (s, some (.ok, .none))

/-- A request answered OK with results. -/
def State.doneWith (s : State) (results : Results) : State × Reply := (s, some (.ok, results))

/-- A RUNNING silence timer restarted with its full duration (R143). -/
def Session.restarted (x : Session) : Session :=
  match x.timer with
  | .running _ => { x with timer := .running x.fullTime }
  | .notRunning => x
  | .suspended => x

/-- The acceptance of a frame: the receiver returns to HUNT with its gap timer stopped, and a RUNNING silence timer is
restarted (R143, R159). -/
def State.frameAccepted (s : State) (p : PortId) : State :=
  (s.setPort p { s.ports[p] with receiver := .hunt, gapTimer := none }).setSession p s.sessions[p].restarted

/-- The cached response that a frame's tag replays (R174). -/
def Port.replayOf (x : Port) (tag : Byte) : Option Response := x.cache.filter fun r => r.tag == tag

/-- The session's checks of a request (R139, R140): the refusal, none when the request passes. -/
def Session.refusal (x : Session) (k : Kind) (epoch : Byte) : Option (Status × Results) :=
  if x.isOpen then
    if k = .openSession ∨ epoch = x.epoch then none else some (.wrongEpoch, .none)
  else if k = .openSession ∨ k = .ident ∨ k = .portStatus then none
  else some (.noSession, .closeCause x.cause)

/-- The execution of a request by its owning block and the answer to it (R164, R166 check 7). -/
def State.execute (s : State) (h : Head) (k : Kind) (act : State → State × Reply) : State :=
  match act s with
  | (t, some (status, results)) => t.answer h.port h.tag k.code status results
  | (t, none) => t

/-- The checks of R166 on an accepted frame whose kind is listed, and its execution. -/
def State.admitKnown (s : State) (h : Head) (k : Kind) (act : State → State × Reply) : State :=
  let x := s.ports[h.port]
  if Config.overrunAt ≤ x.waiting.length then
    s.setPort h.port { x with overruns := satInc x.overruns }
  else
    match x.replayOf h.tag with
    | some r => s.send h.port { r with replay := true }
    | none =>
      if x.awaiting.isSome ∧ k ≠ .cancel then s.send h.port ⟨h.tag, .busy, false, k.code, .none⟩
      else if h.len ≠ k.bodyLen then s.answer h.port h.tag k.code .badLength .none
      else
        match s.sessions[h.port].refusal k h.epoch with
        | some (status, results) => s.answer h.port h.tag k.code status results
        | none => s.execute h k act

/-- The checks of R166 on an accepted frame whose kind is unknown. -/
def State.admitUnknown (s : State) (h : Head) (code : Half) : State :=
  let x := s.ports[h.port]
  if Config.overrunAt ≤ x.waiting.length then
    s.setPort h.port { x with overruns := satInc x.overruns }
  else
    match x.replayOf h.tag with
    | some r => s.send h.port { r with replay := true }
    | none =>
      if x.awaiting.isSome then s.send h.port ⟨h.tag, .busy, false, code, .none⟩
      else s.answer h.port h.tag code .badRequest .none

/-- A frame can be accepted on a port: LRST_n is not held (R155) and the body's length is one the receiver takes (R158).
Where it cannot, the happening does not occur and nothing changes (log entries 3 and 4). -/
def State.takesFrame (s : State) (h : Head) : Bool :=
  !s.ports[h.port].lrst && decide (Config.minBody ≤ h.len ∧ h.len ≤ Config.maxBody)

/-- A request frame accepted and handled, as part of a happening (R159, R166). -/
def State.request (s : State) (h : Head) (k : Kind) (act : State → State × Reply) : State :=
  if s.takesFrame h then (s.frameAccepted h.port).admitKnown h k act else s

/-- A frame of unknown kind accepted and handled, as part of a happening. -/
def State.unknownRequest (s : State) (h : Head) (code : Half) : State :=
  if s.takesFrame h then (s.frameAccepted h.port).admitUnknown h code else s

end Sys2Proof.Machine
end

