-- ==== Sys2Proof/Machine/Captures.lean ====
section
/-! DEFINITION. The capture unit (chapter 4): the capture lines and the capture requests. The storing of a capture stands
in Ops. -/

namespace Sys2Proof.Machine

/-! ## The capture lines -/

/-- Whether a subscription edge accepts an edge (R77). -/
def SubEdge.accepts (e : SubEdge) (rising : Bool) : Bool :=
  match e with
  | .rising => rising
  | .falling => !rising
  | .both => true

/-- The delivery of an edge to one session (R77). -/
def State.deliverEdge (s : State) (n : CapId) (rising : Bool) (p : PortId) : State :=
  match s.capture[p].subs[n] with
  | some u => if u.edge.accepts rising then (s.takeCapture p (.line n) u.mask).1 else s
  | none => s

/-- An edge of a capture line: its tracked level changes (R76) and the edge is delivered to each session (R77). -/
def State.lineEdge (s : State) (n : CapId) : State :=
  let rising := !s.capLevels[n]
  portIds.foldl (fun t p => t.deliverEdge n rising p) (s.setCapLevel n rising)

/-- CAPTURE_LINE_EDGE (R76, R77). -/
def execCaptureLineEdge (n : CapId) (s : State) : Host.Outcome State Fault Refusal :=
  .next (s.happening fun t => t.lineEdge n)

/-! ## The capture requests -/

/-- CAPTURE at the capture unit (R73, R75). -/
def actCapture (p : PortId) (mask : Byte) (s : State) : State × Reply :=
  if mask = 0 then s.refuse .badArg
  else
    match s.takeCapture p .request mask with
    | (t, some seq) => t.doneWith (.captureSeq seq)
    | (t, none) => t.refuse .full

/-- A CAPTURE frame, as part of a happening. -/
def reqCapture (h : Head) (mask : Byte) (s : State) : State := s.request h .capture (actCapture h.port mask)

/-- CAPTURE (R75). -/
def execCapture (h : Head) (mask : Byte) (s : State) : Host.Outcome State Fault Refusal :=
  .next (s.happening (reqCapture h mask))

/-- CAP_SUBSCRIBE at the capture unit (R79). -/
def actCapSubscribe (p : PortId) (line edge mask : Byte) (s : State) : State × Reply :=
  match capOf line, edgeOf edge with
  | some n, some e =>
    let x := s.capture[p]
    (s.setCapture p { x with subs := x.subs.set n (if mask = 0 then none else some ⟨e, mask⟩) }).done
  | _, _ => s.refuse .badArg

/-- A CAP_SUBSCRIBE frame, as part of a happening. -/
def reqCapSubscribe (h : Head) (line edge mask : Byte) (s : State) : State :=
  s.request h .capSubscribe (actCapSubscribe h.port line edge mask)

/-- CAP_SUBSCRIBE (R79). -/
def execCapSubscribe (h : Head) (line edge mask : Byte) (s : State) : Host.Outcome State Fault Refusal :=
  .next (s.happening (reqCapSubscribe h line edge mask))

/-- CAP_POLICY at the capture unit (R80). -/
def actCapPolicy (p : PortId) (policy : Byte) (s : State) : State × Reply :=
  match policyOf policy with
  | some x => (s.setCapture p { s.capture[p] with policy := x }).done
  | none => s.refuse .badArg

/-- A CAP_POLICY frame, as part of a happening. -/
def reqCapPolicy (h : Head) (policy : Byte) (s : State) : State := s.request h .capPolicy (actCapPolicy h.port policy)

/-- CAP_POLICY (R80). -/
def execCapPolicy (h : Head) (policy : Byte) (s : State) : Host.Outcome State Fault Refusal :=
  .next (s.happening (reqCapPolicy h policy))

/-- CAP_FETCH at the capture unit (R81). -/
def actCapFetch (p : PortId) (s : State) : State × Reply :=
  match s.capture[p].ring with
  | r :: _ => s.doneWith (.captureRecord r)
  | [] => s.refuse .empty

/-- A CAP_FETCH frame, as part of a happening. -/
def reqCapFetch (h : Head) (s : State) : State := s.request h .capFetch (actCapFetch h.port)

/-- CAP_FETCH (R81). -/
def execCapFetch (h : Head) (s : State) : Host.Outcome State Fault Refusal := .next (s.happening (reqCapFetch h))

/-- CAP_ACK at the capture unit (R82). -/
def actCapAck (p : PortId) (seq : Half) (s : State) : State × Reply :=
  match s.capture[p].ring with
  | [] => s.refuse .empty
  | r :: rest =>
    if r.seq = seq then (s.setCapture p { s.capture[p] with ring := rest }).doneWith (.recordsLeft rest.length)
    else (s, some (.stale, .oldestSeq r.seq))

/-- A CAP_ACK frame, as part of a happening. -/
def reqCapAck (h : Head) (seq : Half) (s : State) : State := s.request h .capAck (actCapAck h.port seq)

/-- CAP_ACK (R82). -/
def execCapAck (h : Head) (seq : Half) (s : State) : Host.Outcome State Fault Refusal :=
  .next (s.happening (reqCapAck h seq))

/-- CAP_STATUS at the capture unit (R84). -/
def actCapStatus (p : PortId) (s : State) : State × Reply :=
  let x := s.capture[p]
  (s.setCapture p { x with lost := 0, lossReported := false }).doneWith
    (.captureStatus x.ring.length x.seqCounter x.policy x.subs x.lost)

/-- A CAP_STATUS frame, as part of a happening. -/
def reqCapStatus (h : Head) (s : State) : State := s.request h .capStatus (actCapStatus h.port)

/-- CAP_STATUS (R84). -/
def execCapStatus (h : Head) (s : State) : Host.Outcome State Fault Refusal := .next (s.happening (reqCapStatus h))

end Sys2Proof.Machine
end

