-- ==== Sys2Proof/Machine/Channels.lean ====
section
/-! DEFINITION. Counting channels (chapter 1): the transitions of the inputs and the channel requests. -/

namespace Sys2Proof.Machine

/-! ## Steps and faults -/

/-- The direction of a step. -/
inductive Direction where
  | up
  | down
deriving DecidableEq, Repr

/-- What a transition of the A/B pair is to a channel in COUNTING (R5 to R8). -/
inductive PairEffect where
  | nothing
  | step (d : Direction)
  | illegal
deriving DecidableEq, Repr

/-- Up when the flag is set and invert is clear, reversed by invert (R5, R7, R8). -/
def directionOf (up invert : Bool) : Direction := if up != invert then .up else .down

/-- The effect of a transition of the A/B pair in COUNTING, from the levels before it (R5 to R8). -/
def pairEffect (mode : ChanMode) (invert : Bool) (old : Levels) (change : PairChange) : PairEffect :=
  let new := old.changed change
  match mode with
  | .off => .nothing
  | .quad =>
    match change with
    | .aOnly => .step (directionOf (new.a != new.b) invert)
    | .bOnly => .step (directionOf (new.b == new.a) invert)
    | .both => .illegal
  | .eventDir => if !old.a && new.a then .step (directionOf new.b invert) else .nothing
  | .eventUp => if !old.a && new.a then .step (directionOf true invert) else .nothing

/-- Turns one revolution on or back, wrapping at 16 bits (R10). -/
def turnsAfter (t : Int) (d : Direction) : Int :=
  match d with
  | .up => if t + 1 > Config.turnsMax then Config.turnsMin else t + 1
  | .down => if t - 1 < Config.turnsMin then Config.turnsMax else t - 1

/-- A linear count after a step, and whether the step wrapped it (R9). -/
def linearAfter (n : Int) (d : Direction) : Int × Bool :=
  match d with
  | .up => if n + 1 > Config.countMax then (Config.countMin, true) else (n + 1, false)
  | .down => if n - 1 < Config.countMin then (Config.countMax, true) else (n - 1, false)

/-- A modulus count and turns after a step (R10). -/
def modulusAfter (M : Nat) (n t : Int) (d : Direction) : Int × Int :=
  match d with
  | .up => if n = (M : Int) - 1 then (0, turnsAfter t .up) else (n + 1, t)
  | .down => if n = 0 then ((M : Int) - 1, turnsAfter t .down) else (n - 1, t)

/-- A channel after a step, and whether the step was a linear wrap (R9, R10). -/
def Channel.stepped (x : Channel) (d : Direction) : Channel × Bool :=
  if x.modulus = 0 then
    let (n, wrap) := linearAfter x.count d
    ({ x with count := n, wrapped := x.wrapped || wrap }, wrap)
  else
    let (n, t) := modulusAfter x.modulus x.count x.turns d
    ({ x with count := n, turns := t }, false)

/-- A step applied and handed to the zone table: as a discontinuity for a linear wrap, else as a step (R9 to R11). -/
def State.stepChannel (s : State) (c : ChanId) (d : Direction) : State :=
  let (x, wrap) := s.channels[c].stepped d
  if wrap then (s.setChannel c x).discontinuity c else (s.setChannel c x).zoneStep c

/-- A channel after an illegal transition (R13). -/
def Channel.faulted (x : Channel) : Channel :=
  { x with state := .fault, referenced := false, homing := false, faultCount := satIncByte x.faultCount }

/-- The fault of a channel, with its CHANNEL_FAULT (R13). -/
def State.faultChannel (s : State) (c : ChanId) : State :=
  (s.setChannel c s.channels[c].faulted).broadcast none (.channelFault c s.channels[c].count)

/-! ## The inputs -/

/-- A transition of the A/B pair (R4 to R11): the input levels in every state, then, in COUNTING, its effect. -/
def State.abTransition (s : State) (c : ChanId) (change : PairChange) : State :=
  let x := s.channels[c]
  let s1 := s.setChannel c { x with levels := x.levels.changed change }
  if x.state = .counting then
    match pairEffect x.mode x.invert x.levels change with
    | .nothing => s1
    | .step d => s1.stepChannel c d
    | .illegal => s1.faultChannel c
  else s1

/-- AB_PAIR_TRANSITION (R4 to R11, R13). -/
def execAbPairTransition (c : ChanId) (change : PairChange) (s : State) : Host.Outcome State Fault Refusal :=
  .next (s.happening fun t => t.abTransition c change)

/-- The index mark of a rising edge of I, posted to the holder of the channel's claim (R15). -/
def State.markIndex (s : State) (c : ChanId) : State :=
  let x := s.channels[c]
  if x.indexMark then
    let s1 := s.setChannel c { x with mark := some ⟨x.count, x.turns, s.timestamp⟩ }
    match s.holder (chanRes c) with
    | some p => s1.post p (.indexMark c x.count x.turns)
    | none => s1
  else s

/-- The firing of armed homing (R16). -/
def State.fireHoming (s : State) (c : ChanId) : State :=
  let x := s.channels[c]
  if x.homing then
    ((s.setChannel c { x with count := 0, turns := 0, referenced := true, homing := false }).broadcast none
      (.homed c)).discontinuity c
  else s

/-- A change of a channel's I input (R4, R15, R16). -/
def State.indexTransition (s : State) (c : ChanId) : State :=
  let x := s.channels[c]
  let s1 := s.setChannel c { x with levels := { x.levels with i := !x.levels.i } }
  if x.state = .counting ∧ x.levels.i = false then (s1.markIndex c).fireHoming c else s1

/-- INDEX_EDGE (R15, R16). -/
def execIndexEdge (c : ChanId) (s : State) : Host.Outcome State Fault Refusal :=
  .next (s.happening fun t => t.indexTransition c)

/-- A channel whose gate decides between COUNTING and HELD takes the state its G gives (R12). -/
def Channel.regated (x : Channel) : Channel :=
  match x.state with
  | .counting => { x with state := gateState x.gateUse x.levels.g }
  | .held => { x with state := gateState x.gateUse x.levels.g }
  | .off => x
  | .fault => x

/-- A channel after a change of its G input (R4, R12). -/
def Channel.gateChanged (x : Channel) : Channel :=
  let y : Channel := { x with levels := { x.levels with g := !x.levels.g } }
  if x.gateUse then y.regated else y

/-- GATE_CHANGE (R12). -/
def execGateChange (c : ChanId) (s : State) : Host.Outcome State Fault Refusal :=
  .next (s.setChannel c s.channels[c].gateChanged)

/-! ## CHAN_CONFIG -/

/-- The configuration fields of a CHAN_CONFIG whose bytes lie in their codes (R20, R186). -/
structure ChanSetup where
  mode : ChanMode
  modulus : Nat
  invert : Bool
  gateUse : Bool
  indexMark : Bool
deriving DecidableEq, Repr

/-- The configuration a CHAN_CONFIG carries, none when a byte or the modulus is outside its range (R20, R186). -/
def chanSetupOf (mode : Byte) (modulus : Word) (invert gateUse indexMark : Byte) : Option ChanSetup :=
  match chanModeOf mode, modulusOf modulus, yesNoOf invert, yesNoOf gateUse, yesNoOf indexMark with
  | some m, some md, some iv, some gu, some im => some ⟨m, md, iv, gu, im⟩
  | _, _, _, _, _ => none

/-- The use check of R20. -/
def State.configInUse (s : State) (c : ChanId) (f : ChanSetup) : Bool :=
  s.zonesOn c
    && ((f.mode == .off && s.channels[c].mode != .off) || f.modulus != s.channels[c].modulus)

/-- Whether a configuration changes the mode or the modulus of a channel (R21). -/
def Channel.changes (x : Channel) (f : ChanSetup) : Bool := f.mode != x.mode || f.modulus != x.modulus

/-- A channel after an accepted CHAN_CONFIG (R21). -/
def Channel.configured (x : Channel) (f : ChanSetup) : Channel :=
  let y : Channel :=
    { x with mode := f.mode, modulus := f.modulus, invert := f.invert, gateUse := f.gateUse, indexMark := f.indexMark }
  if x.changes f then
    { y with
      count := 0, turns := 0, referenced := false, wrapped := false, homing := false, mark := none,
      state := if f.mode = .off then .off else gateState f.gateUse x.levels.g }
  else y.regated

/-- The effects of an accepted CHAN_CONFIG (R21). -/
def State.configure (s : State) (p : PortId) (c : ChanId) (f : ChanSetup) : State :=
  let x := s.channels[c]
  let s1 := (s.setChannel c (x.configured f)).broadcast (some p) (.channelReconfigured c)
  if x.changes f then s1.discontinuity c else s1

/-- CHAN_CONFIG at its channel, the checks in the order of R19 and R20. -/
def actChanConfig (p : PortId) (channel mode : Byte) (modulus : Word) (invert gateUse indexMark : Byte) (s : State) :
    State × Reply :=
  match chanOf channel with
  | none => s.refuse .badArg
  | some c =>
    if s.holder (chanRes c) ≠ some p then s.refuse .notHolder
    else
      match chanSetupOf mode modulus invert gateUse indexMark with
      | none => s.refuse .badArg
      | some f => if s.configInUse c f then s.refuse .inUse else (s.configure p c f).done

/-- A CHAN_CONFIG frame, as part of a happening. -/
def reqChanConfig (h : Head) (channel mode : Byte) (modulus : Word) (invert gateUse indexMark : Byte) (s : State) :
    State :=
  s.request h .chanConfig (actChanConfig h.port channel mode modulus invert gateUse indexMark)

/-- CHAN_CONFIG (R19 to R21). -/
def execChanConfig (h : Head) (channel mode : Byte) (modulus : Word) (invert gateUse indexMark : Byte) (s : State) :
    Host.Outcome State Fault Refusal :=
  .next (s.happening (reqChanConfig h channel mode modulus invert gateUse indexMark))

/-! ## CHAN_PRESET -/

/-- The count and turns of a CHAN_PRESET lie in the channel's ranges (R22). -/
def Channel.presetInRange (x : Channel) (count turns : Int) : Bool :=
  if x.modulus = 0 then turns == 0 else decide (0 ≤ count ∧ count < (x.modulus : Int))

/-- The effects of an accepted CHAN_PRESET (R22). -/
def State.preset (s : State) (p : PortId) (c : ChanId) (count turns : Int) : State :=
  ((s.setChannel c { s.channels[c] with count := count, turns := turns, referenced := true, wrapped := false }).broadcast
    (some p) (.channelReconfigured c)).discontinuity c

/-- CHAN_PRESET at its channel, the checks in the order of R19 and R22. -/
def actChanPreset (p : PortId) (channel : Byte) (count : Word) (turns : Half) (s : State) : State × Reply :=
  match chanOf channel with
  | none => s.refuse .badArg
  | some c =>
    if s.holder (chanRes c) ≠ some p then s.refuse .notHolder
    else if s.channels[c].mode = .off then s.refuse .channelOff
    else if s.channels[c].presetInRange count.toInt turns.toInt then (s.preset p c count.toInt turns.toInt).done
    else s.refuse .badArg

/-- A CHAN_PRESET frame, as part of a happening. -/
def reqChanPreset (h : Head) (channel : Byte) (count : Word) (turns : Half) (s : State) : State :=
  s.request h .chanPreset (actChanPreset h.port channel count turns)

/-- CHAN_PRESET (R19, R22). -/
def execChanPreset (h : Head) (channel : Byte) (count : Word) (turns : Half) (s : State) :
    Host.Outcome State Fault Refusal :=
  .next (s.happening (reqChanPreset h channel count turns))

/-! ## CHAN_HOME -/

/-- CHAN_HOME at its channel, the checks in the order of R19, R23 and R186. -/
def actChanHome (p : PortId) (channel cancel : Byte) (s : State) : State × Reply :=
  match chanOf channel with
  | none => s.refuse .badArg
  | some c =>
    if s.holder (chanRes c) ≠ some p then s.refuse .notHolder
    else if s.channels[c].state = .off then s.refuse .channelOff
    else if s.channels[c].state = .fault then s.refuse .channelFault
    else
      match yesNoOf cancel with
      | none => s.refuse .badArg
      | some x => (s.setChannel c { s.channels[c] with homing := !x }).done

/-- A CHAN_HOME frame, as part of a happening. -/
def reqChanHome (h : Head) (channel cancel : Byte) (s : State) : State :=
  s.request h .chanHome (actChanHome h.port channel cancel)

/-- CHAN_HOME (R19, R23). -/
def execChanHome (h : Head) (channel cancel : Byte) (s : State) : Host.Outcome State Fault Refusal :=
  .next (s.happening (reqChanHome h channel cancel))

/-! ## CHAN_CLEAR_FAULT -/

/-- The recovery of a channel in FAULT (R24); nothing in any other state. -/
def State.clearFault (s : State) (c : ChanId) : State :=
  let x := s.channels[c]
  if x.state = .fault then
    (s.setChannel c { x with state := gateState x.gateUse x.levels.g }).broadcast none (.channelRecovered c)
  else s

/-- CHAN_CLEAR_FAULT at its channel (R19, R24). -/
def actChanClearFault (p : PortId) (channel : Byte) (s : State) : State × Reply :=
  match chanOf channel with
  | none => s.refuse .badArg
  | some c => if s.holder (chanRes c) ≠ some p then s.refuse .notHolder else (s.clearFault c).done

/-- A CHAN_CLEAR_FAULT frame, as part of a happening. -/
def reqChanClearFault (h : Head) (channel : Byte) (s : State) : State :=
  s.request h .chanClearFault (actChanClearFault h.port channel)

/-- CHAN_CLEAR_FAULT (R19, R24). -/
def execChanClearFault (h : Head) (channel : Byte) (s : State) : Host.Outcome State Fault Refusal :=
  .next (s.happening (reqChanClearFault h channel))

/-! ## CHAN_READ -/

/-- CHAN_READ at its channel (R19, R25). -/
def actChanRead (channel : Byte) (s : State) : State × Reply :=
  match chanOf channel with
  | none => s.refuse .badArg
  | some c => s.doneWith (.channelRecord c s.channels[c] s.timestamp (s.holder (chanRes c)))

/-- A CHAN_READ frame, as part of a happening. -/
def reqChanRead (h : Head) (channel : Byte) (s : State) : State := s.request h .chanRead (actChanRead channel)

/-- CHAN_READ (R25). -/
def execChanRead (h : Head) (channel : Byte) (s : State) : Host.Outcome State Fault Refusal :=
  .next (s.happening (reqChanRead h channel))

end Sys2Proof.Machine
end

