-- ==== Sys2Proof/Machine/Claims.lean ====
section
/-! DEFINITION. The claim requests (chapter 6). -/

namespace Sys2Proof.Machine

/-- The claimed drive of a line whose free entry a CLAIM takes (R122); a channel is not touched (R109). -/
def State.claimedDrive (s : State) (r : ResId) : State :=
  match resLine r with
  | some k => s.setLine k (s.lines[k].driven .inactive)
  | none => s

/-- CLAIM at the claim table (R109). -/
def actClaim (p : PortId) (resource : Byte) (s : State) : State × Reply :=
  match resOf resource with
  | none => s.refuse .badArg
  | some r =>
    match s.claims[r] with
    | some x => if x.holder = p then s.doneWith (.claimed r x.stamp) else (s, some (.held, .holder x.holder))
    | none => ((s.setClaim r (some ⟨p, s.timestamp⟩)).claimedDrive r).doneWith (.claimed r s.timestamp)

/-- A CLAIM frame, as part of a happening. -/
def reqClaim (h : Head) (resource : Byte) (s : State) : State := s.request h .claim (actClaim h.port resource)

/-- CLAIM (R109, R122). -/
def execClaim (h : Head) (resource : Byte) (s : State) : Host.Outcome State Fault Refusal :=
  .next (s.happening (reqClaim h resource))

/-- Whether the use check of R111 refuses the release of a resource. -/
def State.releaseInUse (s : State) (r : ResId) : Bool :=
  match resLine r with
  | some k => s.zonesLinked k
  | none => false

/-- RELEASE at the claim table, the checks in the order of R111, the effects of R112. -/
def actRelease (p : PortId) (resource : Byte) (s : State) : State × Reply :=
  match resOf resource with
  | none => s.refuse .badArg
  | some r =>
    if s.holder r ≠ some p then s.refuse .notHolder
    else if s.releaseInUse r then s.refuse .inUse
    else (s.freeClaim p r).done

/-- A RELEASE frame, as part of a happening. -/
def reqRelease (h : Head) (resource : Byte) (s : State) : State := s.request h .release (actRelease h.port resource)

/-- RELEASE (R111 to R113, R130). -/
def execRelease (h : Head) (resource : Byte) (s : State) : Host.Outcome State Fault Refusal :=
  .next (s.happening (reqRelease h resource))

/-- CLAIM_LIST at the claim table (R115). -/
def actClaimList (s : State) : State × Reply := s.doneWith (.claimList s.claims)

/-- A CLAIM_LIST frame, as part of a happening. -/
def reqClaimList (h : Head) (s : State) : State := s.request h .claimList actClaimList

/-- CLAIM_LIST (R115). -/
def execClaimList (h : Head) (s : State) : Host.Outcome State Fault Refusal := .next (s.happening (reqClaimList h))

end Sys2Proof.Machine
end

