-- ==== Sys2Proof/Machine/Events.lean ====
section
/-! DEFINITION. The requests of the event queues (chapter 5). Storing and broadcasting stand in Ops. -/

namespace Sys2Proof.Machine

/-- A queue with its n oldest records removed, and the OVERFLOW record of R97 stored when records were removed and losses
were counted. -/
def EventQueue.readOut (q : EventQueue) (isOpen : Bool) (n : Nat) (now : Word) : EventQueue :=
  let rest : EventQueue := { q with records := q.records.drop n }
  if q.overflow ≠ 0 ∧ q.records.take n ≠ [] then
    ({ rest with overflow := 0 } : EventQueue).store isOpen ⟨.overflow q.overflow, now⟩
  else rest

/-- EVT_READ at the requester's queue (R97 to R99). -/
def actEvtRead (p : PortId) (n : Byte) (s : State) : State × Reply :=
  if n.toNat = 0 ∨ Config.maxRead < n.toNat then s.refuse .badArg
  else
    let q := s.queues[p]
    let x := s.sessions[p].isOpen
    let q' := (q.readOut x n.toNat s.timestamp).attend x
    (s.setQueue p q').doneWith (.events (q.records.take n.toNat) q'.records.length)

/-- An EVT_READ frame, as part of a happening. -/
def reqEvtRead (h : Head) (n : Byte) (s : State) : State := s.request h .evtRead (actEvtRead h.port n)

/-- EVT_READ (R98). -/
def execEvtRead (h : Head) (n : Byte) (s : State) : Host.Outcome State Fault Refusal :=
  .next (s.happening (reqEvtRead h n))

/-- EVT_ATTN at the requester's queue (R101, R102). -/
def actEvtAttn (p : PortId) (onOff : Byte) (s : State) : State × Reply :=
  match yesNoOf onOff with
  | none => s.refuse .badArg
  | some x =>
    let q := s.queues[p]
    (s.setQueue p (({ q with enabled := x } : EventQueue).attend s.sessions[p].isOpen)).doneWith
      (.attention x q.records.length)

/-- An EVT_ATTN frame, as part of a happening. -/
def reqEvtAttn (h : Head) (onOff : Byte) (s : State) : State := s.request h .evtAttn (actEvtAttn h.port onOff)

/-- EVT_ATTN (R101). -/
def execEvtAttn (h : Head) (onOff : Byte) (s : State) : Host.Outcome State Fault Refusal :=
  .next (s.happening (reqEvtAttn h onOff))

end Sys2Proof.Machine
end

