-- ==== Sys2Proof/Machine/Outputs.lean ====
section
/-! DEFINITION. The output lines (chapter 6): the output requests and the running out of a pulse timer. -/

namespace Sys2Proof.Machine

/-- PULSE_TIMER_EXPIRY (R128): the pulse timer of a line is due and runs out. Where it is not due, no running out happens
(log entry 3). -/
def execPulseTimerExpiry (k : LineId) (s : State) : Host.Outcome State Fault Refusal :=
  .next (if s.lines[k].timer = some 0 then s.setLine k ({ s.lines[k] with timer := none }.driven .inactive) else s)

/-- The fields of an OUT_MODE whose values lie in their codes (R131). -/
structure LineSetup where
  mode : OutMode
  polarity : Polarity
  width : Half
  retrigger : Retrigger
deriving DecidableEq, Repr

/-- The configuration an OUT_MODE carries, none when check 3 of R131 fails. -/
def lineSetupOf (mode polarity : Byte) (width : Half) (retrigger : Byte) : Option LineSetup :=
  match outModeOf mode, polarityOf polarity, retriggerOf retrigger with
  | some m, some pol, some rt => if width = 0 then none else some ⟨m, pol, width, rt⟩
  | _, _, _ => none

/-- A line after an accepted OUT_MODE (R132): the timer cancelled, the four fields stored, the drive of the new mode; the
FOLLOW drive is the one its following zones give. -/
def OutLine.setUp (l : OutLine) (f : LineSetup) (followed : Drive) : OutLine :=
  let l1 : OutLine :=
    { l with timer := none, mode := f.mode, polarity := f.polarity, width := f.width, retrigger := f.retrigger }
  l1.driven
    (match f.mode with
     | .direct => l.directDrive
     | .follow => followed
     | .pulse => .inactive)

/-- OUT_MODE at its line, the checks in the order of R131, the effects of R132. -/
def actOutMode (p : PortId) (line mode polarity : Byte) (width : Half) (retrigger : Byte) (s : State) : State × Reply :=
  match lineOf line with
  | none => s.refuse .badArg
  | some k =>
    if s.holder (lineRes k) ≠ some p then s.refuse .notHolder
    else
      match lineSetupOf mode polarity width retrigger with
      | none => s.refuse .badArg
      | some f =>
        let l := s.lines[k].setUp f (s.followDrive k)
        (s.setLine k l).doneWith (.drive l.drive)

/-- An OUT_MODE frame, as part of a happening. -/
def reqOutMode (h : Head) (line mode polarity : Byte) (width : Half) (retrigger : Byte) (s : State) : State :=
  s.request h .outMode (actOutMode h.port line mode polarity width retrigger)

/-- OUT_MODE (R131, R132). -/
def execOutMode (h : Head) (line mode polarity : Byte) (width : Half) (retrigger : Byte) (s : State) :
    Host.Outcome State Fault Refusal :=
  .next (s.happening (reqOutMode h line mode polarity width retrigger))

/-- OUT_SET at its line, the checks in the order of R133. -/
def actOutSet (p : PortId) (line level : Byte) (s : State) : State × Reply :=
  match lineOf line with
  | none => s.refuse .badArg
  | some k =>
    if s.holder (lineRes k) ≠ some p then s.refuse .notHolder
    else
      match yesNoOf level with
      | none => s.refuse .badArg
      | some x =>
        if s.lines[k].mode ≠ .direct then s.refuse .wrongMode
        else
          let l : OutLine := { s.lines[k] with direct := x }
          (s.setLine k (l.driven l.directDrive)).done

/-- An OUT_SET frame, as part of a happening. -/
def reqOutSet (h : Head) (line level : Byte) (s : State) : State := s.request h .outSet (actOutSet h.port line level)

/-- OUT_SET (R133). -/
def execOutSet (h : Head) (line level : Byte) (s : State) : Host.Outcome State Fault Refusal :=
  .next (s.happening (reqOutSet h line level))

/-- OUT_READ at its line (R134). -/
def actOutRead (line : Byte) (s : State) : State × Reply :=
  match lineOf line with
  | none => s.refuse .badArg
  | some k => s.doneWith (.outRecord (s.holder (lineRes k)) s.lines[k])

/-- An OUT_READ frame, as part of a happening. -/
def reqOutRead (h : Head) (line : Byte) (s : State) : State := s.request h .outRead (actOutRead line)

/-- OUT_READ (R134). -/
def execOutRead (h : Head) (line : Byte) (s : State) : Host.Outcome State Fault Refusal :=
  .next (s.happening (reqOutRead h line))

end Sys2Proof.Machine
end

