-- ==== Sys2Proof/Machine/Ports.lean ====
section
/-! DEFINITION. The master ports (chapter 8): AWAIT and its endings, CANCEL, IDENT, PORT_STATUS, the transmit line and
frames of unknown kind. -/

namespace Sys2Proof.Machine

/-! ## AWAIT and its endings -/

/-- AWAIT at the port (R168). -/
def actAwait (p : PortId) (tag timeout : Byte) (s : State) : State × Reply :=
  if timeout = 0 then s.refuse .badArg
  else if s.queues[p].records ≠ [] then s.doneWith (.depth s.queues[p].records.length)
  else
    ((s.setPort p { s.ports[p] with awaiting := some ⟨tag, timeout, timeout.toNat * Config.tenMs⟩ }).setSession p
      { s.sessions[p] with timer := .suspended }, none)

/-- An AWAIT frame, as part of a happening. -/
def reqAwait (h : Head) (timeout : Byte) (s : State) : State := s.request h .await (actAwait h.port h.tag timeout)

/-- AWAIT (R168). -/
def execAwait (h : Head) (timeout : Byte) (s : State) : Host.Outcome State Fault Refusal :=
  .next (s.happening (reqAwait h timeout))

/-- AWAIT_TIMEOUT (R170): a due AWAIT timer runs out. Where it is not due, no running out happens (log entry 3). -/
def execAwaitTimeout (p : PortId) (s : State) : Host.Outcome State Fault Refusal :=
  .next (if s.ports[p].awaiting.any (·.left == 0) then s.endAwait p .timeout .none else s)

/-- AWAIT_ENDED_BY_STORE (R169): an EXECUTING port takes the notice that its queue holds a record and ends its AWAIT. The
command that stores does this itself, in its own happening (State.happening); log entry 6. -/
def execAwaitEndedByStore (p : PortId) (s : State) : Host.Outcome State Fault Refusal :=
  .next (if s.queues[p].records ≠ [] then s.endAwaitByStore p else s)

/-- CANCEL at the port (R171): CANCELLED to the AWAIT, not cached, then the OK; NOTHING_PENDING on an IDLE port. -/
def actCancel (p : PortId) (s : State) : State × Reply :=
  match s.ports[p].awaiting with
  | none => s.refuse .nothingPending
  | some a => ((s.send p ⟨a.tag, .cancelled, false, Kind.await.code, .none⟩).stopAwait p).done

/-- A CANCEL frame, as part of a happening. -/
def reqCancel (h : Head) (s : State) : State := s.request h .cancel (actCancel h.port)

/-- CANCEL (R171). -/
def execCancel (h : Head) (s : State) : Host.Outcome State Fault Refusal := .next (s.happening (reqCancel h))

/-! ## IDENT and PORT_STATUS -/

/-- IDENT at the port (R176). -/
def actIdent (p : PortId) (s : State) : State × Reply := s.doneWith (.ident p)

/-- An IDENT frame, as part of a happening. -/
def reqIdent (h : Head) (s : State) : State := s.request h .ident (actIdent h.port)

/-- IDENT (R176). -/
def execIdent (h : Head) (s : State) : Host.Outcome State Fault Refusal := .next (s.happening (reqIdent h))

/-- PORT_STATUS at the port (R177): the response is composed, then the three error counts are set to 0. -/
def actPortStatus (p : PortId) (s : State) : State × Reply :=
  let x := s.ports[p]
  let y := s.sessions[p]
  (s.setPort p { x with crcErrors := 0, framingErrors := 0, overruns := 0 }).doneWith
    (.portStatus y.isOpen y.epoch y.cause x.crcErrors x.framingErrors x.overruns s.timestamp (x.cache.map (·.tag)))

/-- A PORT_STATUS frame, as part of a happening. -/
def reqPortStatus (h : Head) (s : State) : State := s.request h .portStatus (actPortStatus h.port)

/-- PORT_STATUS (R177). -/
def execPortStatus (h : Head) (s : State) : Host.Outcome State Fault Refusal := .next (s.happening (reqPortStatus h))

/-! ## The transmit line, and frames of unknown kind -/

/-- A port whose response has been sent whole begins the next of its transmit list (R164). -/
def Port.sentWhole (x : Port) : Port :=
  match x.sending with
  | some _ => { x with sending := x.waiting.head?, waiting := x.waiting.tail }
  | none => x

/-- RESPONSE_SENT (R164). With no response being sent, no end of sending happens (log entry 3). -/
def execResponseSent (p : PortId) (s : State) : Host.Outcome State Fault Refusal :=
  .next (s.setPort p s.ports[p].sentWhole)

/-- UNKNOWN_REQUEST_KIND (R166): BAD_REQUEST at check 4. A code that R181 lists is not an unknown kind, and no such
happening occurs (log entry 3). -/
def execUnknownRequestKind (h : Head) (code : Half) (s : State) : Host.Outcome State Fault Refusal :=
  .next (s.happening fun t => if (Kind.ofCode code).isNone then t.unknownRequest h code else t)

end Sys2Proof.Machine
end

