-- ==== Sys2Proof/Machine/Sessions.lean ====
section
/-! DEFINITION. Sessions (chapter 7): OPEN, CLOSE, NOP, HUB_RESET, the running out of the silence timer and LRST_n. The
teardown stands in Ops. -/

namespace Sys2Proof.Machine

/-! ## OPEN, CLOSE and NOP -/

/-- A session after an accepted OPEN (R140, R142): the new epoch and silence setting, OPEN, the timer started. -/
def Session.opened (x : Session) (silence : Byte) : Session :=
  { isOpen := true, epoch := nextEpoch x.epoch, silence := some silence,
    timer := .running (silence.toNat * Config.tenMs), cause := x.cause }

/-- OPEN at the session, the checks in the order of R141, the effects of R142 (R85, R103). -/
def actOpenSession (p : PortId) (silence : Byte) (s : State) : State × Reply :=
  let x := s.sessions[p]
  if x.isOpen then (s, some (.alreadyOpen, .alreadyOpen x.epoch x.silence))
  else if silence = 0 then s.refuse .badArg
  else
    (((s.setSession p (x.opened silence)).setCapture p CaptureState.fresh).setQueue p EventQueue.fresh).doneWith
      (.opened (nextEpoch x.epoch) x.cause)

/-- An OPEN frame, as part of a happening. -/
def reqOpenSession (h : Head) (silence : Byte) (s : State) : State :=
  s.request h .openSession (actOpenSession h.port silence)

/-- OPEN (R141, R142). -/
def execOpenSession (h : Head) (silence : Byte) (s : State) : Host.Outcome State Fault Refusal :=
  .next (s.happening (reqOpenSession h silence))

/-- CLOSE at the session (R146); its OK is produced after the teardown, so it is not cached. -/
def actCloseSession (p : PortId) (s : State) : State × Reply := (s.teardown p .closed).done

/-- A CLOSE frame, as part of a happening. -/
def reqCloseSession (h : Head) (s : State) : State := s.request h .closeSession (actCloseSession h.port)

/-- CLOSE (R146). -/
def execCloseSession (h : Head) (s : State) : Host.Outcome State Fault Refusal := .next (s.happening (reqCloseSession h))

/-- NOP at the session (R147). -/
def actNop (s : State) : State × Reply := s.done

/-- A NOP frame, as part of a happening. -/
def reqNop (h : Head) (s : State) : State := s.request h .nop actNop

/-- NOP (R147). -/
def execNop (h : Head) (s : State) : Host.Outcome State Fault Refusal := .next (s.happening (reqNop h))

/-! ## The silence timer -/

/-- The running out of a due silence timer, which runs in an OPEN session alone (R143, R145). Where it is not due, no
running out happens (log entry 3). -/
def State.silenceRunOut (s : State) (p : PortId) : State :=
  if s.sessions[p].isOpen ∧ s.sessions[p].timer = .running 0 then s.teardown p .timeout else s

/-- SILENCE_TIMEOUT (R145). -/
def execSilenceTimeout (p : PortId) (s : State) : Host.Outcome State Fault Refusal :=
  .next (s.happening fun t => t.silenceRunOut p)

/-! ## HUB_RESET -/

/-- The lowest resource held by a session other than the requester, with its holder (R150). -/
def State.heldByOther (s : State) (p : PortId) : Option (ResId × PortId) :=
  (List.finRange 14).findSome? fun r =>
    match s.holder r with
    | some q => if q = p then none else some (r, q)
    | none => none

/-- The AWAIT in flight of another port at a HUB_RESET: one that a record of the same happening has ended is answered OK
(R169); any other is answered SESSION_ENDED, which is not cached (R149, R151). Log entry 7. -/
def State.endAwaitByReset (s : State) (p : PortId) : State :=
  match s.ports[p].awaiting with
  | none => s
  | some a =>
    if s.queues[p].records = [] then (s.stopAwait p).send p ⟨a.tag, .sessionEnded, false, Kind.await.code, .none⟩
    else s.endAwaitByStore p

/-- Step 1 of R151 for one other session. -/
def State.resetSession (s : State) (p : PortId) : State :=
  if s.sessions[p].isOpen then (s.endAwaitByReset p).teardown p .hubReset else s

/-- Step 6 of R151 for one other port. -/
def State.resetPort (s : State) (p : PortId) : State :=
  s.setPort p { s.ports[p] with cache := none, crcErrors := 0, framingErrors := 0, overruns := 0 }

/-- The ports other than one, in ascending order. -/
def otherPorts (p : PortId) : List PortId := portIds.filter (· != p)

/-- Steps 2 to 5 of R151: channels over the input levels at the pins (R26), zones (R64), claims and lines (R117, R135),
timestamp (R30). -/
def State.resetShared (s : State) : State :=
  { s with
    channels := mapRows (fun x => Channel.atReset x.levels) s.channels
    zones := Vector.replicate 32 none
    claims := Vector.replicate 14 none
    lines := mapRows (fun l => OutLine.defaults l.safe) s.lines
    timestamp := 0 }

/-- The effects of an accepted HUB_RESET, in the order of R151. -/
def State.hubReset (s : State) (p : PortId) : State :=
  let s1 := (otherPorts p).foldl State.resetSession s
  let s2 := s1.resetShared
  let s3 := (otherPorts p).foldl State.resetPort s2
  let s4 := s3.setCapture p CaptureState.fresh
  s4.setQueue p s4.queues[p].emptied

/-- HUB_RESET at the session (R150, R151). -/
def actHubReset (p : PortId) (s : State) : State × Reply :=
  match s.heldByOther p with
  | some (r, q) => (s, some (.held, .heldResource r q))
  | none => (s.hubReset p).done

/-- A HUB_RESET frame, as part of a happening. -/
def reqHubReset (h : Head) (s : State) : State := s.request h .hubReset (actHubReset h.port)

/-- HUB_RESET (R150 to R152). -/
def execHubReset (h : Head) (s : State) : Host.Outcome State Fault Refusal := .next (s.happening (reqHubReset h))

/-! ## LRST_n -/

/-- The port after the assertion of LRST_n (R154, R157): the AWAIT abandoned, the receiver in HUNT with its gap timer
stopped, the error counts 0, the cache empty, the responses not yet begun discarded; a response being sent goes on. -/
def Port.lineReset (x : Port) : Port :=
  { x with
    receiver := .hunt, gapTimer := none, awaiting := none, cache := none
    crcErrors := 0, framingErrors := 0, overruns := 0, waiting := [], lrst := true }

/-- The assertion of LRST_n (R154). Where the line is already at its active level, no assertion happens (log entry 3). -/
def State.lrstAsserted (s : State) (p : PortId) : State :=
  if s.ports[p].lrst then s
  else
    let s1 := if s.sessions[p].isOpen then s.teardown p .portReset else s
    s1.setPort p s1.ports[p].lineReset

/-- LRST_N_ASSERTED (R154). -/
def execLrstNAsserted (p : PortId) (s : State) : Host.Outcome State Fault Refusal :=
  .next (s.happening fun t => t.lrstAsserted p)

/-- LRST_N_RELEASED (R155): the receiver, in HUNT, takes bytes again; nothing else changes. -/
def execLrstNReleased (p : PortId) (s : State) : Host.Outcome State Fault Refusal :=
  .next (s.setPort p { s.ports[p] with lrst := false })

end Sys2Proof.Machine
end

