-- ==== Sys2Proof/Machine/TimeBase.lean ====
section
/-! DEFINITION. The time base (chapter 2): the increment of the timestamp with every running timer, and TIME_READ. -/

namespace Sys2Proof.Machine

/-- A silence timer one increment later: only a RUNNING timer counts (R143, R144). -/
def SilenceTimer.tick (t : SilenceTimer) : SilenceTimer :=
  match t with
  | .running n => .running (n - 1)
  | .notRunning => .notRunning
  | .suspended => .suspended

/-- A port's AWAIT timer and frame-gap timer one increment later (R35). -/
def Port.tick (x : Port) : Port :=
  { x with
    gapTimer := tickTimer x.gapTimer
    awaiting := x.awaiting.map fun a => { a with left := a.left - 1 } }

/-- One increment of the time base: the timestamp adds 1 modulo 2^32 (R29) and each of the fifteen timers that runs has
one increment less to go (R35). -/
def State.increment (s : State) : State :=
  { s with
    timestamp := s.timestamp + 1
    lines := mapRows (fun l => { l with timer := tickTimer l.timer }) s.lines
    sessions := mapRows (fun x => { x with timer := x.timer.tick }) s.sessions
    ports := mapRows Port.tick s.ports }

/-- TIMESTAMP_INCREMENT (R29, R35). -/
def execTimestampIncrement (s : State) : Host.Outcome State Fault Refusal := .next s.increment

/-- TIME_READ at the time base: the receipt time equals the present timestamp, since the frame is executed in the
happening in which its last byte is taken (R33, R34). -/
def actTimeRead (s : State) : State × Reply := s.doneWith (.times s.timestamp s.timestamp)

/-- A TIME_READ frame, as part of a happening. -/
def reqTimeRead (h : Head) (s : State) : State := s.request h .timeRead actTimeRead

/-- TIME_READ (R34). -/
def execTimeRead (h : Head) (s : State) : Host.Outcome State Fault Refusal := .next (s.happening (reqTimeRead h))

end Sys2Proof.Machine
end

