-- ==== Sys2Proof/Machine/Zones.lean ====
section
/-! DEFINITION. The zone requests (chapter 3). The evaluation of zones stands in Ops. -/

namespace Sys2Proof.Machine

/-! ## ZONE_CREATE -/

/-- The lowest free slot (R36). -/
def State.freeSlot (s : State) : Option ZoneId := (List.finRange 32).find? fun z => s.zones[z].isNone

/-- The bounds and hysteresis of a zone fit its channel (R41, R43, check 4 of R54). -/
def boundsFit (M : Nat) (low high : Int) (h : Nat) : Bool :=
  if M = 0 then decide (low ≤ high)
  else
    decide (0 ≤ low ∧ low < (M : Int) ∧ 0 ≤ high ∧ high < (M : Int)
      ∧ windowWidth M low high < (M : Int) ∧ 2 * (h : Int) < (M : Int) - windowWidth M low high)

/-- What check 4 of R54 makes of the parameters: the new record, armed and not yet evaluated, or none where the check
fails (R37, R54, R186). -/
def newZone (p : PortId) (c : ChanId) (M : Nat) (z : ZoneParams) : Option Zone :=
  match actionSetOf z.enterEvent z.enterMask z.enterTrigger, actionSetOf z.exitEvent z.exitMask z.exitTrigger,
      linkOf z.linkLine z.linkFollow with
  | some en, some ex, some link =>
    if boundsFit M z.low.toInt z.high.toInt z.hysteresis.toNat && (link.isSome || !(en.trigger || ex.trigger)) then
      some { owner := p, channel := c, low := z.low.toInt, high := z.high.toInt, hysteresis := z.hysteresis.toNat,
             armed := true, state := .outside, onEnter := en, onExit := ex, link := link, entryCount := 0 }
    else none
  | _, _, _ => none

/-- A zone raw-evaluated against the present count of its channel (R44). -/
def State.rawEvaluated (s : State) (z : Zone) : Zone :=
  { z with state := z.rawState s.channels[z.channel].modulus s.channels[z.channel].count }

/-- Whether a session holds the line that a link names; an absent link needs none (check 5 of R54). -/
def State.linkHeld (s : State) (p : PortId) (link : Option Link) : Bool :=
  match link with
  | some l => s.holder (lineRes l.line) == some p
  | none => true

/-- ZONE_CREATE at the zone table, the checks in the order of R54, the effects of R55. -/
def actZoneCreate (p : PortId) (z : ZoneParams) (s : State) : State × Reply :=
  match s.freeSlot with
  | none => s.refuse .full
  | some id =>
    match chanOf z.channel with
    | none => s.refuse .badArg
    | some c =>
      if s.channels[c].mode = .off then s.refuse .channelOff
      else
        match newZone p c s.channels[c].modulus z with
        | none => s.refuse .badArg
        | some x =>
          if s.linkHeld p x.link then
            ((s.setZone id (some (s.rawEvaluated x))).recomputeLink x.link).doneWith
              (.zoneCreated id (s.rawEvaluated x).state)
          else s.refuse .notHolder

/-- A ZONE_CREATE frame, as part of a happening. -/
def reqZoneCreate (h : Head) (z : ZoneParams) (s : State) : State := s.request h .zoneCreate (actZoneCreate h.port z)

/-- ZONE_CREATE (R54, R55). -/
def execZoneCreate (h : Head) (z : ZoneParams) (s : State) : Host.Outcome State Fault Refusal :=
  .next (s.happening (reqZoneCreate h z))

/-! ## The requests that name a zone -/

/-- The zone that a zone id names, none for a free slot and for an id above 31 (check 1 of R53). -/
def State.zoneNamed (s : State) (zone : Byte) : Option (ZoneId × Zone) :=
  match zoneOf zone with
  | some id => s.zones[id].map fun z => (id, z)
  | none => none

/-- The checks of R53 for the owner's requests, then the request on the zone found. -/
def State.withOwnZone (s : State) (p : PortId) (zone : Byte) (f : ZoneId → Zone → State × Reply) : State × Reply :=
  match s.zoneNamed zone with
  | none => s.refuse .noSuchZone
  | some (id, z) => if z.owner = p then f id z else s.refuse .notOwner

/-- ZONE_ARM at the zone table (R53, R57). -/
def actZoneArm (p : PortId) (zone : Byte) (s : State) : State × Reply :=
  s.withOwnZone p zone fun id z =>
    if z.armed then s.doneWith (.zoneState z.state)
    else
      let x := s.rawEvaluated { z with armed := true }
      ((s.setZone id (some x)).recomputeLink x.link).doneWith (.zoneState x.state)

/-- A ZONE_ARM frame, as part of a happening. -/
def reqZoneArm (h : Head) (zone : Byte) (s : State) : State := s.request h .zoneArm (actZoneArm h.port zone)

/-- ZONE_ARM (R57). -/
def execZoneArm (h : Head) (zone : Byte) (s : State) : Host.Outcome State Fault Refusal :=
  .next (s.happening (reqZoneArm h zone))

/-- ZONE_DISARM at the zone table (R53, R58). -/
def actZoneDisarm (p : PortId) (zone : Byte) (s : State) : State × Reply :=
  s.withOwnZone p zone fun id z =>
    if z.armed then ((s.setZone id (some { z with armed := false, state := .idle })).recomputeLink z.link).done
    else s.done

/-- A ZONE_DISARM frame, as part of a happening. -/
def reqZoneDisarm (h : Head) (zone : Byte) (s : State) : State := s.request h .zoneDisarm (actZoneDisarm h.port zone)

/-- ZONE_DISARM (R58). -/
def execZoneDisarm (h : Head) (zone : Byte) (s : State) : Host.Outcome State Fault Refusal :=
  .next (s.happening (reqZoneDisarm h zone))

/-- ZONE_DELETE at the zone table (R53, R59). -/
def actZoneDelete (p : PortId) (zone : Byte) (s : State) : State × Reply :=
  s.withOwnZone p zone fun id z => ((s.setZone id none).recomputeLink z.link).done

/-- A ZONE_DELETE frame, as part of a happening. -/
def reqZoneDelete (h : Head) (zone : Byte) (s : State) : State := s.request h .zoneDelete (actZoneDelete h.port zone)

/-- ZONE_DELETE (R59). -/
def execZoneDelete (h : Head) (zone : Byte) (s : State) : Host.Outcome State Fault Refusal :=
  .next (s.happening (reqZoneDelete h zone))

/-- ZONE_READ at the zone table (R53, R60). -/
def actZoneRead (zone : Byte) (s : State) : State × Reply :=
  match s.zoneNamed zone with
  | none => s.refuse .noSuchZone
  | some (id, z) => s.doneWith (.zoneRecord id z)

/-- A ZONE_READ frame, as part of a happening. -/
def reqZoneRead (h : Head) (zone : Byte) (s : State) : State := s.request h .zoneRead (actZoneRead zone)

/-- ZONE_READ (R60). -/
def execZoneRead (h : Head) (zone : Byte) (s : State) : Host.Outcome State Fault Refusal :=
  .next (s.happening (reqZoneRead h zone))

/-- Every zone in use with its owner and state, in ascending id (R61). -/
def State.zoneSummary (s : State) : List (ZoneId × PortId × ZoneState) :=
  s.slotsWith fun o => o.map fun z => (z.owner, z.state)

/-- ZONE_LIST at the zone table (R61). -/
def actZoneList (s : State) : State × Reply := s.doneWith (.zoneList s.zoneSummary)

/-- A ZONE_LIST frame, as part of a happening. -/
def reqZoneList (h : Head) (s : State) : State := s.request h .zoneList actZoneList

/-- ZONE_LIST (R61). -/
def execZoneList (h : Head) (s : State) : Host.Outcome State Fault Refusal := .next (s.happening (reqZoneList h))

end Sys2Proof.Machine
end

