-- ==== Sys2Proof/Machine/Receiver.lean ====
section
/-! DEFINITION. The receiver of a port (R158 to R162): bytes taken, frames completed, CRC failures examined again, framing
errors and the frame-gap timer. -/

namespace Sys2Proof.Machine

/-! ## The request that a frame spells -/

/-- The handling of the request that a command names, as part of a happening; a command that is no request has none. -/
def runRequest (i : Instr) (s : State) : State :=
  match i with
  | .chanConfig h c m md iv gu im => reqChanConfig h c m md iv gu im s
  | .chanPreset h c n t => reqChanPreset h c n t s
  | .chanHome h c x => reqChanHome h c x s
  | .chanClearFault h c => reqChanClearFault h c s
  | .chanRead h c => reqChanRead h c s
  | .timeRead h => reqTimeRead h s
  | .zoneCreate h z => reqZoneCreate h z s
  | .zoneArm h z => reqZoneArm h z s
  | .zoneDisarm h z => reqZoneDisarm h z s
  | .zoneDelete h z => reqZoneDelete h z s
  | .zoneRead h z => reqZoneRead h z s
  | .zoneList h => reqZoneList h s
  | .capture h m => reqCapture h m s
  | .capSubscribe h l e m => reqCapSubscribe h l e m s
  | .capPolicy h x => reqCapPolicy h x s
  | .capFetch h => reqCapFetch h s
  | .capAck h q => reqCapAck h q s
  | .capStatus h => reqCapStatus h s
  | .evtRead h n => reqEvtRead h n s
  | .evtAttn h x => reqEvtAttn h x s
  | .claim h r => reqClaim h r s
  | .release h r => reqRelease h r s
  | .claimList h => reqClaimList h s
  | .outMode h l m pol w rt => reqOutMode h l m pol w rt s
  | .outSet h l v => reqOutSet h l v s
  | .outRead h l => reqOutRead h l s
  | .openSession h x => reqOpenSession h x s
  | .closeSession h => reqCloseSession h s
  | .nop h => reqNop h s
  | .hubReset h => reqHubReset h s
  | .await h x => reqAwait h x s
  | .cancel h => reqCancel h s
  | .ident h => reqIdent h s
  | .portStatus h => reqPortStatus h s
  | .unknownRequestKind h code => s.unknownRequest h code
  | .powerOnReset _ => s
  | .abPairTransition _ _ => s
  | .indexEdge _ => s
  | .gateChange _ => s
  | .captureLineEdge _ => s
  | .lrstNAsserted _ => s
  | .lrstNReleased _ => s
  | .crcFailure _ _ _ => s
  | .framingError _ _ => s
  | .frameGapTimeout _ => s
  | .pulseTimerExpiry _ => s
  | .silenceTimeout _ => s
  | .awaitTimeout _ => s
  | .awaitEndedByStore _ => s
  | .responseSent _ => s
  | .timestampIncrement => s
  | .frameByteTaken _ _ => s

/-- A frame with a correct CRC accepted and its request handled (R159, R166). -/
def State.acceptBody (s : State) (p : PortId) (body : List Byte) : State := runRequest (decodeRequest p body) s

/-! ## Errors -/

/-- The receiver and the frame-gap timer of a port set. -/
def State.setReceiver (s : State) (p : PortId) (r : Receiver) (gap : Option Nat) : State :=
  s.setPort p { s.ports[p] with receiver := r, gapTimer := gap }

/-- A framing error: counted, the frame under assembly discarded, the receiver in HUNT, the gap timer stopped (R158,
R161). -/
def State.framing (s : State) (p : PortId) : State :=
  s.setPort p
    { s.ports[p] with receiver := .hunt, gapTimer := none, framingErrors := satInc s.ports[p].framingErrors }

/-- A CRC failure counted, the frame discarded (R160). -/
def State.crcError (s : State) (p : PortId) : State :=
  s.setPort p { s.ports[p] with receiver := .hunt, gapTimer := none, crcErrors := satInc s.ports[p].crcErrors }

/-! ## Bytes examined again (R160) -/

/-- What the bytes after a sync byte hold (R158): the receiver they leave when they run out, a bad length, or a whole
frame with its CRC bytes. -/
inductive Found where
  | partialFrame (r : Receiver)
  | badLength
  | whole (body : List Byte) (crc : Half)
deriving DecidableEq, Repr

/-- The frame that begins with the sync byte before these bytes (R158). -/
def frameAt (bytes : List Byte) : Found :=
  match bytes with
  | [] => .partialFrame .length
  | n :: rest =>
    if n.toNat < Config.minBody ∨ Config.maxBody < n.toNat then .badLength
    else
      match rest.drop n.toNat with
      | [] => .partialFrame (if rest.length < n.toNat then .body n.toNat rest else .check rest none)
      | [hi] => .partialFrame (.check (rest.take n.toNat) (some hi))
      | hi :: lo :: _ => .whole (rest.take n.toNat) (bytesHalf hi lo)

/-- The bytes of a failed frame examined again, from HUNT (R160). The number says how many bytes the frame found last
still covers. An accepted frame is handled before the examination goes on after it; after a further CRC failure it goes
on with the byte after that frame's sync byte; after a bad length with the byte after the length. When the bytes run
out inside a frame, the receiver stays there with the frame-gap timer started. -/
def examine (p : PortId) : Nat → List Byte → State → State
  | _, [], s => s
  | skip + 1, _ :: rest, s => examine p skip rest s
  | 0, b :: rest, s =>
    if b = Config.syncByte then
      match frameAt rest with
      | .partialFrame r => s.setReceiver p r (some Config.frameGap)
      | .badLength => examine p 1 rest (s.framing p)
      | .whole body crc =>
        if frameCrc body = crc then examine p (body.length + 3) rest (s.acceptBody p body)
        else examine p 0 rest (s.crcError p)
    else examine p 0 rest s

/-- A frame whose CRC does not match, with its bytes after the sync byte examined again (R160). -/
def State.crcFailed (s : State) (p : PortId) (body : List Byte) (crc : Half) : State :=
  examine p 0 (afterSync body crc) (s.crcError p)

/-- CRC_FAILURE (R160): the frame whose body and CRC bytes the command carries is complete. No frame completes while
LRST_n is held (R155), with a body of another length (R158), or with the CRC that matches (R159): then the happening does
not occur (log entries 3 and 4). -/
def execCrcFailure (p : PortId) (body : List Byte) (crc : Half) (s : State) : Host.Outcome State Fault Refusal :=
  .next (s.happening fun t =>
    if t.takesFrame ⟨p, 0, 0, body.length⟩ ∧ frameCrc body ≠ crc then t.crcFailed p body crc else t)

/-- FRAMING_ERROR (R158): a frame's length byte outside 4 to 40 is taken. It is not while LRST_n is held (R155), and a
byte of 4 to 40 is no framing error (log entries 3 and 4). -/
def execFramingError (p : PortId) (n : Byte) (s : State) : Host.Outcome State Fault Refusal :=
  .next
    (if s.ports[p].lrst = false ∧ (n.toNat < Config.minBody ∨ Config.maxBody < n.toNat) then s.framing p else s)

/-- FRAME_GAP_TIMEOUT (R161): a due frame-gap timer runs out. Where it is not due, no running out happens (log entry 3). -/
def execFrameGapTimeout (p : PortId) (s : State) : Host.Outcome State Fault Refusal :=
  .next (if s.ports[p].gapTimer = some 0 then s.framing p else s)

/-! ## A byte from the line -/

/-- A byte taken from a receive line, by the receiver state (R158 to R160). -/
def State.takeByte (s : State) (p : PortId) (b : Byte) : State :=
  if s.ports[p].lrst then s
  else
    match s.ports[p].receiver with
    | .hunt => if b = Config.syncByte then s.setReceiver p .length (some Config.frameGap) else s
    | .length =>
      if b.toNat < Config.minBody ∨ Config.maxBody < b.toNat then s.framing p
      else s.setReceiver p (.body b.toNat []) (some Config.frameGap)
    | .body n taken =>
      s.setReceiver p (if n ≤ taken.length + 1 then .check (taken ++ [b]) none else .body n (taken ++ [b]))
        (some Config.frameGap)
    | .check body none => s.setReceiver p (.check body (some b)) (some Config.frameGap)
    | .check body (some hi) =>
      if frameCrc body = bytesHalf hi b then s.acceptBody p body else s.crcFailed p body (bytesHalf hi b)

/-- FRAME_BYTE_TAKEN (R158): the byte that completes a frame accepts it (R159) or makes it a CRC failure (R160). -/
def execFrameByteTaken (p : PortId) (b : Byte) (s : State) : Host.Outcome State Fault Refusal :=
  .next (s.happening fun t => t.takeByte p b)

end Sys2Proof.Machine
end

