-- ==== Sys2Proof/Machine/Reset.lean ====
section
/-! DEFINITION. Power-on reset: every record at the value its chapter gives, over the levels at the pins. -/

namespace Sys2Proof.Machine

/-- The hub right after power-on reset, over the levels that the pins show when it ends: channels (R26), timestamp (R28),
zones (R36), capture state and capture lines (R65, R76), queues (R106), claims (R107), lines with the straps sampled
(R118, R119), sessions (R136), ports (R157). The commands that wait are not the part's and stay. -/
def State.poweredOn (s : State) (pins : Pins) : State :=
  { timestamp := 0
    channels := Vector.ofFn fun c => Channel.atReset (pinLevels pins c)
    zones := Vector.replicate 32 none
    capture := Vector.replicate 3 CaptureState.fresh
    capLevels := Vector.ofFn fun n => pins.cap.getLsbD n
    queues := Vector.replicate 3 EventQueue.fresh
    claims := Vector.replicate 14 none
    lines := Vector.ofFn fun k => OutLine.defaults (pins.safe.getLsbD k)
    sessions := Vector.replicate 3 Session.atReset
    ports := Vector.ofFn fun p => Port.atReset (pins.lrst.getLsbD p)
    pending := s.pending }

/-- POWER_ON_RESET (R26, R76, R106, R119, R136, R157). -/
def execPowerOnReset (pins : Pins) (s : State) : Host.Outcome State Fault Refusal := .next (s.poweredOn pins)

end Sys2Proof.Machine
end

