-- ==== Sys2Proof/Machine/Dispatch.lean ====
section
/-! DEFINITION. The command dispatch: one arm for each row of spec/opcode_table.json. -/

namespace Sys2Proof.Machine

def exec (i : Instr) (s : State) : Host.Outcome State Fault Refusal :=
  match i with
  | .powerOnReset pins => Sys2Proof.Machine.execPowerOnReset pins s
  | .abPairTransition channel change => Sys2Proof.Machine.execAbPairTransition channel change s
  | .indexEdge channel => Sys2Proof.Machine.execIndexEdge channel s
  | .gateChange channel => Sys2Proof.Machine.execGateChange channel s
  | .captureLineEdge line => Sys2Proof.Machine.execCaptureLineEdge line s
  | .lrstNAsserted port => Sys2Proof.Machine.execLrstNAsserted port s
  | .lrstNReleased port => Sys2Proof.Machine.execLrstNReleased port s
  | .crcFailure port body crc => Sys2Proof.Machine.execCrcFailure port body crc s
  | .framingError port length => Sys2Proof.Machine.execFramingError port length s
  | .frameGapTimeout port => Sys2Proof.Machine.execFrameGapTimeout port s
  | .pulseTimerExpiry line => Sys2Proof.Machine.execPulseTimerExpiry line s
  | .silenceTimeout port => Sys2Proof.Machine.execSilenceTimeout port s
  | .awaitTimeout port => Sys2Proof.Machine.execAwaitTimeout port s
  | .awaitEndedByStore port => Sys2Proof.Machine.execAwaitEndedByStore port s
  | .responseSent port => Sys2Proof.Machine.execResponseSent port s
  | .chanConfig h channel mode modulus invert gateUse indexMark => Sys2Proof.Machine.execChanConfig h channel mode modulus invert gateUse indexMark s
  | .chanPreset h channel count turns => Sys2Proof.Machine.execChanPreset h channel count turns s
  | .chanHome h channel cancel => Sys2Proof.Machine.execChanHome h channel cancel s
  | .chanClearFault h channel => Sys2Proof.Machine.execChanClearFault h channel s
  | .chanRead h channel => Sys2Proof.Machine.execChanRead h channel s
  | .timeRead h => Sys2Proof.Machine.execTimeRead h s
  | .zoneCreate h z => Sys2Proof.Machine.execZoneCreate h z s
  | .zoneArm h zone => Sys2Proof.Machine.execZoneArm h zone s
  | .zoneDisarm h zone => Sys2Proof.Machine.execZoneDisarm h zone s
  | .zoneDelete h zone => Sys2Proof.Machine.execZoneDelete h zone s
  | .zoneRead h zone => Sys2Proof.Machine.execZoneRead h zone s
  | .zoneList h => Sys2Proof.Machine.execZoneList h s
  | .capture h mask => Sys2Proof.Machine.execCapture h mask s
  | .capSubscribe h line edge mask => Sys2Proof.Machine.execCapSubscribe h line edge mask s
  | .capPolicy h policy => Sys2Proof.Machine.execCapPolicy h policy s
  | .capFetch h => Sys2Proof.Machine.execCapFetch h s
  | .capAck h seq => Sys2Proof.Machine.execCapAck h seq s
  | .capStatus h => Sys2Proof.Machine.execCapStatus h s
  | .evtRead h n => Sys2Proof.Machine.execEvtRead h n s
  | .evtAttn h onOff => Sys2Proof.Machine.execEvtAttn h onOff s
  | .claim h resource => Sys2Proof.Machine.execClaim h resource s
  | .release h resource => Sys2Proof.Machine.execRelease h resource s
  | .claimList h => Sys2Proof.Machine.execClaimList h s
  | .outMode h line mode polarity width retrigger => Sys2Proof.Machine.execOutMode h line mode polarity width retrigger s
  | .outSet h line level => Sys2Proof.Machine.execOutSet h line level s
  | .outRead h line => Sys2Proof.Machine.execOutRead h line s
  | .openSession h silence => Sys2Proof.Machine.execOpenSession h silence s
  | .closeSession h => Sys2Proof.Machine.execCloseSession h s
  | .nop h => Sys2Proof.Machine.execNop h s
  | .hubReset h => Sys2Proof.Machine.execHubReset h s
  | .await h timeout => Sys2Proof.Machine.execAwait h timeout s
  | .cancel h => Sys2Proof.Machine.execCancel h s
  | .ident h => Sys2Proof.Machine.execIdent h s
  | .portStatus h => Sys2Proof.Machine.execPortStatus h s
  | .timestampIncrement => Sys2Proof.Machine.execTimestampIncrement s
  | .frameByteTaken port byte => Sys2Proof.Machine.execFrameByteTaken port byte s
  | .unknownRequestKind h code => Sys2Proof.Machine.execUnknownRequestKind h code s

end Sys2Proof.Machine
end

