-- ==== Sys2Proof/Machine/Formats.lean ====
section
/-! DEFINITION. The bytes the part sends (chapter 10): the codes of R183, the layouts of R182, R184 and R185, and the
frame of a response (R179, R180). -/

namespace Sys2Proof.Machine

/-! ## Codes (R183) -/

def Status.byte : Status → Byte
  | .ok => 0
  | .busy => 1
  | .badRequest => 2
  | .badLength => 3
  | .badArg => 4
  | .noSession => 5
  | .wrongEpoch => 6
  | .alreadyOpen => 7
  | .held => 8
  | .notHolder => 9
  | .notOwner => 10
  | .inUse => 11
  | .full => 12
  | .empty => 13
  | .stale => 14
  | .channelOff => 15
  | .channelFault => 16
  | .wrongMode => 17
  | .noSuchZone => 18
  | .timeout => 19
  | .cancelled => 20
  | .nothingPending => 21
  | .sessionEnded => 22

def portByte (p : PortId) : Byte := BitVec.ofNat 8 p.val
def holderByte (o : Option PortId) : Byte :=
  match o with
  | some p => portByte p
  | none => 0xFF
def flagByte (b : Bool) : Byte := if b then 1 else 0
def ChanMode.byte : ChanMode → Byte
  | .off => 0
  | .quad => 1
  | .eventDir => 2
  | .eventUp => 3
def ChanState.byte : ChanState → Byte
  | .off => 0
  | .counting => 1
  | .held => 2
  | .fault => 3
def ZoneState.byte : ZoneState → Byte
  | .idle => 0
  | .inside => 1
  | .outside => 2
def Policy.byte : Policy → Byte
  | .keepOldest => 0
  | .keepNewest => 1
def SubEdge.byte : SubEdge → Byte
  | .rising => 1
  | .falling => 2
  | .both => 3
def OutMode.byte : OutMode → Byte
  | .direct => 0
  | .follow => 1
  | .pulse => 2
def Polarity.byte : Polarity → Byte
  | .activeHigh => 0
  | .activeLow => 1
def Drive.byte : Drive → Byte
  | .safe => 0
  | .active => 1
  | .inactive => 2
def Retrigger.byte : Retrigger → Byte
  | .ignore => 0
  | .restart => 1
def CloseCause.byte : CloseCause → Byte
  | .none => 0
  | .closed => 1
  | .timeout => 2
  | .portReset => 3
  | .hubReset => 4
/-- The code of a capture cause; its zone is a field of its own. -/
def CaptureCause.byte : CaptureCause → Byte
  | .request => 0
  | .line n => if n = 0 then 1 else 2
  | .zoneEnter _ => 3
  | .zoneExit _ => 4
/-- The zone byte of a capture record (R185). -/
def CaptureCause.zoneByte : CaptureCause → Byte
  | .request => 0xFF
  | .line _ => 0xFF
  | .zoneEnter z => BitVec.ofNat 8 z.val
  | .zoneExit z => BitVec.ofNat 8 z.val

/-! ## Fields (R179) -/

/-- A signed four-byte field. -/
def countBytes (n : Int) : List Byte := wordBytes (BitVec.ofInt 32 n)
/-- A signed two-byte field. -/
def turnsBytes (n : Int) : List Byte := halfBytes (BitVec.ofInt 16 n)
/-- A number in one byte. -/
def natByte (n : Nat) : Byte := BitVec.ofNat 8 n
/-- The input levels of a channel: A in bit 0, B in bit 1, I in bit 2, G in bit 3. -/
def Levels.byte (x : Levels) : Byte :=
  flagByte x.a ||| (flagByte x.b <<< 1) ||| (flagByte x.i <<< 2) ||| (flagByte x.g <<< 3)

/-! ## Event records (R91, R184) -/

/-- The kind code of an event. -/
def Event.kindByte : Event → Byte
  | .zoneEnter _ _ _ => 1
  | .zoneExit _ _ _ => 2
  | .zoneResync _ _ => 3
  | .captureReady _ => 4
  | .captureLost _ => 5
  | .indexMark _ _ _ => 6
  | .homed _ => 7
  | .channelFault _ _ => 8
  | .channelRecovered _ => 9
  | .channelReconfigured _ => 10
  | .claimFreed _ => 11
  | .overflow _ => 12

/-- The subject of an event, absent for the kinds that have none (R91). -/
def Event.subject : Event → Option Byte
  | .zoneEnter z _ _ => some (natByte z.val)
  | .zoneExit z _ _ => some (natByte z.val)
  | .zoneResync z _ => some (natByte z.val)
  | .captureReady _ => none
  | .captureLost _ => none
  | .indexMark c _ _ => some (natByte c.val)
  | .homed c => some (natByte c.val)
  | .channelFault c _ => some (natByte c.val)
  | .channelRecovered c => some (natByte c.val)
  | .channelReconfigured c => some (natByte c.val)
  | .claimFreed r => some (natByte r.val)
  | .overflow _ => none

/-- The argument of an event as its four-byte field, absent for the kinds that have none (R91, R184). -/
def Event.argument : Event → Option Word
  | .zoneEnter _ n _ => some (BitVec.ofInt 32 n)
  | .zoneExit _ n _ => some (BitVec.ofInt 32 n)
  | .zoneResync _ st => some (st.byte.setWidth 32)
  | .captureReady q => some (q.setWidth 32)
  | .captureLost n => some (n.setWidth 32)
  | .indexMark _ n _ => some (BitVec.ofInt 32 n)
  | .homed _ => none
  | .channelFault _ n => some (BitVec.ofInt 32 n)
  | .channelRecovered _ => none
  | .channelReconfigured _ => none
  | .claimFreed _ => none
  | .overflow n => some (n.setWidth 32)

/-- The second argument of an event, present for the kinds that carry a position (R91). -/
def Event.second : Event → Option Half
  | .zoneEnter _ _ t => some (BitVec.ofInt 16 t)
  | .zoneExit _ _ t => some (BitVec.ofInt 16 t)
  | .indexMark _ _ t => some (BitVec.ofInt 16 t)
  | .zoneResync _ _ => none
  | .captureReady _ => none
  | .captureLost _ => none
  | .homed _ => none
  | .channelFault _ _ => none
  | .channelRecovered _ => none
  | .channelReconfigured _ => none
  | .claimFreed _ => none
  | .overflow _ => none

/-- The presence byte of an event record (R184). -/
def Event.presence (e : Event) : Byte :=
  flagByte e.subject.isSome ||| (flagByte e.argument.isSome <<< 1) ||| (flagByte e.second.isSome <<< 2)

/-- The 13 bytes of an event record (R184). -/
def EventRecord.bytes (r : EventRecord) : List Byte :=
  [r.event.kindByte, r.event.presence, r.event.subject.getD 0] ++ wordBytes r.stamp
    ++ wordBytes (r.event.argument.getD 0) ++ halfBytes (r.event.second.getD 0)

/-! ## Capture records (R185) -/

def ChannelEntry.bytes (e : ChannelEntry) : List Byte :=
  [natByte e.channel.val, e.state.byte] ++ countBytes e.count ++ turnsBytes e.turns ++ [flagByte e.referenced]

def CaptureRecord.bytes (r : CaptureRecord) : List Byte :=
  halfBytes r.seq ++ [r.cause.byte, r.cause.zoneByte] ++ wordBytes r.stamp ++ [r.mask]
    ++ r.entries.flatMap ChannelEntry.bytes

/-! ## Results (R182) -/

/-- The channel record of CHAN_READ (10.3.1). -/
def channelBytes (c : ChanId) (x : Channel) (now : Word) (holder : Option PortId) : List Byte :=
  [natByte c.val, x.mode.byte] ++ wordBytes (BitVec.ofNat 32 x.modulus)
    ++ [flagByte x.invert, flagByte x.gateUse, flagByte x.indexMark, x.state.byte]
    ++ countBytes x.count ++ turnsBytes x.turns
    ++ [flagByte x.referenced, flagByte x.wrapped, flagByte x.homing, flagByte x.mark.isSome]
    ++ countBytes ((x.mark.map (·.count)).getD 0) ++ turnsBytes ((x.mark.map (·.turns)).getD 0)
    ++ wordBytes ((x.mark.map (·.stamp)).getD 0)
    ++ [x.faultCount, x.levels.byte] ++ wordBytes now ++ [holderByte holder]

def ActionSet.bytes (a : ActionSet) : List Byte := [flagByte a.event, a.mask, flagByte a.trigger]

/-- The link bytes of ZONE_READ (10.3.2). -/
def linkBytes (l : Option Link) : List Byte :=
  match l with
  | some x => [natByte x.line.val, flagByte x.follow]
  | none => [0xFF, 0]

/-- The zone record of ZONE_READ (10.3.2). -/
def zoneBytes (id : ZoneId) (z : Zone) : List Byte :=
  [natByte id.val, portByte z.owner, natByte z.channel.val] ++ countBytes z.low ++ countBytes z.high
    ++ halfBytes (BitVec.ofNat 16 z.hysteresis) ++ [flagByte z.armed, z.state.byte]
    ++ z.onEnter.bytes ++ z.onExit.bytes ++ linkBytes z.link ++ halfBytes z.entryCount

/-- A subscription in CAP_STATUS; an absent one is edge 0 and mask 0. -/
def subBytes (u : Option Subscription) : List Byte :=
  match u with
  | some x => [x.edge.byte, x.mask]
  | none => [0, 0]

/-- An entry of CLAIM_LIST; a free one has holder 0xFF, stamp present 0 and stamp 0. -/
def claimBytes (x : Option Claim) : List Byte :=
  match x with
  | some y => [portByte y.holder, 1] ++ wordBytes y.stamp
  | none => [0xFF, 0] ++ wordBytes 0

/-- The result bytes of a response, from offset 5 of its body (R182). -/
def Results.bytes : Results → List Byte
  | .none => []
  | .closeCause c => [c.byte]
  | .alreadyOpen e n => [e, n.getD 0]
  | .holder p => [portByte p]
  | .heldResource r p => [natByte r.val, portByte p]
  | .oldestSeq q => halfBytes q
  | .channelRecord c x now who => channelBytes c x now who
  | .times receipt present => wordBytes receipt ++ wordBytes present
  | .zoneCreated z st => [natByte z.val, st.byte]
  | .zoneState st => [st.byte]
  | .zoneRecord id z => zoneBytes id z
  | .zoneList l => natByte l.length :: l.flatMap fun e => [natByte e.1.val, portByte e.2.1, e.2.2.byte]
  | .captureSeq q => halfBytes q
  | .captureRecord r => r.bytes
  | .recordsLeft n => [natByte n]
  | .captureStatus fill next policy subs lost =>
    [natByte fill] ++ halfBytes next ++ [policy.byte] ++ subBytes subs[0] ++ subBytes subs[1] ++ halfBytes lost
  | .events rs left => [natByte rs.length, natByte left] ++ rs.flatMap EventRecord.bytes
  | .attention on left => [flagByte on, natByte left]
  | .claimed r stamp => natByte r.val :: wordBytes stamp
  | .claimList claims => (List.finRange 14).flatMap fun r => natByte r.val :: claimBytes claims[r]
  | .drive d => [d.byte]
  | .outRecord who l =>
    [holderByte who, l.polarity.byte, l.mode.byte, flagByte l.direct] ++ halfBytes l.width
      ++ [l.retrigger.byte, flagByte l.timer.isSome, l.drive.byte, flagByte l.safe, flagByte l.pin]
  | .opened e c => [e, c.byte]
  | .depth n => [natByte n]
  | .ident p => halfBytes Config.partCode ++ [Config.revision, portByte p, 8, 6, 32, 4, 16, 3]
  | .portStatus isOpen e c crc framing overrun receipt tag =>
    [flagByte isOpen, e, c.byte] ++ halfBytes crc ++ halfBytes framing ++ halfBytes overrun ++ wordBytes receipt
      ++ [flagByte tag.isSome, tag.getD 0]

/-! ## Frames -/

/-- The body of a response frame (R164, R182). -/
def Response.body (r : Response) : List Byte :=
  [r.tag, r.status.byte, flagByte r.replay] ++ halfBytes r.kind ++ r.results.bytes

/-- A response as the transmit line carries it (R179, R180). -/
def Response.frame (r : Response) : List Byte := frameBytes r.body

/-- The frame on a port's transmit line, none while nothing is being sent (R164). -/
def State.txFrame (s : State) (p : PortId) : Option (List Byte) := s.ports[p].sending.map Response.frame

end Sys2Proof.Machine
end

