-- ==== Sys2Proof/WellFormed.lean ====
section
/-! DEFINITION. Which commands name a happening that the spec describes: the checks a term of Instr can fail. -/

namespace Sys2Proof

/-- A frame the receiver can accept has a body of 4 to 40 bytes (R158, R179). -/
def lenAccepted (n : Nat) : Bool := decide (Config.minBody ≤ n ∧ n ≤ Config.maxBody)

/-- A well-formed command:
* the frame of a request, of an unknown kind or of a CRC failure has a body the receiver can accept (R158);
* the CRC of a CRC failure is not the frame's (R160);
* the length byte of a framing error is outside 4 to 40 (R158);
* an unknown kind's code is not one that R181 lists (R163). -/
def WellFormed (c : Instr) : Bool :=
  match c with
  | .crcFailure _ body crc => lenAccepted body.length && crc != frameCrc body
  | .framingError _ n => !lenAccepted n.toNat
  | .unknownRequestKind h code => lenAccepted h.len && (Kind.ofCode code).isNone
  | c =>
    match c.request? with
    | some (_, h) => lenAccepted h.len
    | none => true

/-- A request whose body has the length R181 fixes for its kind. -/
def FitsKind (c : Instr) : Bool :=
  match c.request? with
  | some (k, h) => h.len == k.bodyLen
  | none => false

end Sys2Proof
end

