-- ==== Sys2Proof/Safety.lean ====
section
/-! DEFINITION. The laws of the hub: what the spec says holds between happenings, as predicates of a state that every step
is claimed to keep. Each names the rules it gathers. -/

namespace Sys2Proof.Machine

/-! ## Channels (R1, R2, R3, R10, R12, R13) -/

/-- The laws of one channel record:
* the modulus is 0 or 2 to 16,777,216, and the count and turns lie in the ranges it gives (R2); the wrapped flag stays
  clear on a modulus channel (R10);
* the state is OFF exactly in mode OFF (R3), and then count and turns are 0 (R2), the flags clear and the mark absent;
* HELD needs gate_use set and G low, COUNTING the opposite (R12);
* FAULT is left by a change of mode, so its mode is QUAD, and homing is disarmed in it (R13, R21). -/
abbrev Channel.Lawful (x : Channel) : Prop :=
  (x.modulus = 0 ∨ (2 ≤ x.modulus ∧ x.modulus ≤ Config.maxModulus)) ∧
  (x.modulus = 0 → Config.countMin ≤ x.count ∧ x.count ≤ Config.countMax ∧ x.turns = 0) ∧
  (x.modulus ≠ 0 → 0 ≤ x.count ∧ x.count < (x.modulus : Int) ∧ Config.turnsMin ≤ x.turns ∧
    x.turns ≤ Config.turnsMax ∧ x.wrapped = false) ∧
  (x.mode = .off ↔ x.state = .off) ∧
  (x.mode = .off → x.count = 0 ∧ x.turns = 0 ∧ x.referenced = false ∧ x.wrapped = false ∧ x.homing = false ∧
    x.mark = none) ∧
  (x.state = .held → x.gateUse = true ∧ x.levels.g = false) ∧
  (x.state = .counting → x.gateUse = false ∨ x.levels.g = true) ∧
  (x.state = .fault → x.mode = .quad ∧ x.homing = false)

/-- Every channel record obeys its laws. -/
abbrev ChannelsLawful (s : State) : Prop := ∀ c : ChanId, (s.channels[c]).Lawful

/-! ## Ownership (R36, R37, R39, R40, R108) -/

/-- The laws of one zone record among the other tables:
* its owner is OPEN (R36), its channel is not OFF and its bounds fit the channel's modulus (R40, R43);
* armed agrees with the state (R37);
* a link names a line that the owner holds (R39), and without a link no action set has an output trigger (R37). -/
abbrev ZoneLawful (s : State) (z : Zone) : Prop :=
  (s.sessions[z.owner]).isOpen = true ∧
  (s.channels[z.channel]).mode ≠ .off ∧
  boundsFit (s.channels[z.channel]).modulus z.low z.high z.hysteresis = true ∧
  (z.armed = true ↔ z.state ≠ .idle) ∧
  (∀ l ∈ z.link, s.holder (lineRes l.line) = some z.owner) ∧
  (z.link = none → z.onEnter.trigger = false ∧ z.onExit.trigger = false)

/-- Every zone is lawful, and every holder of a claim is a session in OPEN (R108). -/
abbrev OwnershipLawful (s : State) : Prop :=
  (∀ id : ZoneId, ∀ z ∈ s.zones[id], ZoneLawful s z) ∧
  (∀ r : ResId, ∀ x ∈ s.claims[r], (s.sessions[x.holder]).isOpen = true)

/-! ## Output lines (R118 to R130) -/

/-- The drive of a held line is the one its mode gives (R121): the direct level in DIRECT, the state of its following
zones in FOLLOW, the pulse timer in PULSE; the pulse timer runs in PULSE alone. -/
def OutLine.drivenByMode (l : OutLine) (followed : Drive) : Bool :=
  match l.mode with
  | .direct => l.drive == l.directDrive && l.timer.isNone
  | .follow => l.drive == followed && l.timer.isNone
  | .pulse => l.drive == if l.timer.isSome then .active else .inactive

/-- The laws of the output lines:
* the pin shows the drive through the polarity, or the safe level (R120);
* a line whose entry is free holds the defaults with drive SAFE (R118, R119);
* a line whose entry is held has the drive of its mode, never SAFE (R118, R121). -/
abbrev LinesLawful (s : State) : Prop :=
  ∀ k : LineId,
    (s.lines[k]).pin = pinLevel (s.lines[k]).polarity (s.lines[k]).safe (s.lines[k]).drive ∧
    (s.claims[lineRes k] = none → s.lines[k] = OutLine.defaults (s.lines[k]).safe) ∧
    (s.claims[lineRes k] ≠ none →
      (s.lines[k]).drive ≠ .safe ∧ (s.lines[k]).width ≠ 0 ∧ (s.lines[k]).drivenByMode (s.followDrive k) = true)

/-! ## Event queues (R88, R96, R102) -/

/-- The laws of the event queues: at most 16 records (R88); the overflow count is non-zero only while the queue holds 16
(R96); ATTN_n is asserted exactly under its condition (R102). -/
abbrev QueuesLawful (s : State) : Prop :=
  ∀ p : PortId,
    (s.queues[p]).records.length ≤ Config.queueSize ∧
    ((s.queues[p]).overflow ≠ 0 → (s.queues[p]).records.length = Config.queueSize) ∧
    (s.queues[p]).attn = attnCondition (s.sessions[p]).isOpen (s.queues[p]).enabled (s.queues[p]).records

/-! ## Capture rings (R65, R66, R67, R70, R74) -/

/-- The sequence numbers of a ring run consecutively, modulo 65,536, up to the one before the counter (R66, R70). -/
def consecutive : List CaptureRecord → Half → Bool
  | [], _ => true
  | r :: rest, counter => r.seq == counter - BitVec.ofNat 16 (rest.length + 1) && consecutive rest counter

/-- A record holds one entry for each channel its mask names, and its mask names one (R67). -/
abbrev CaptureRecord.Lawful (r : CaptureRecord) : Prop :=
  r.mask ≠ 0 ∧ r.entries.map (·.channel) = (List.finRange 8).filter (maskNames r.mask)

/-- The laws of the capture states: at most 4 records, consecutive numbers (R66), lawful records (R67), subscriptions with
a mask that is not 0 (R65), and the loss-reported flag set exactly when losses have been counted since it was cleared
(R74). -/
abbrev RingsLawful (s : State) : Prop :=
  (∀ p : PortId,
    (s.capture[p]).ring.length ≤ Config.ringSize ∧
    consecutive (s.capture[p]).ring (s.capture[p]).seqCounter = true ∧
    (∀ r ∈ (s.capture[p]).ring, r.Lawful) ∧
    (∀ n : CapId, ∀ u ∈ (s.capture[p]).subs[n], u.mask ≠ 0) ∧
    ((s.capture[p]).lossReported = true ↔ (s.capture[p]).lost ≠ 0))

/-! ## Sessions and ports (R138, R143, R155, R157, R161, R165, R167, R169) -/

/-- A CLOSED session's port has an empty queue, capture state and retry cache, no AWAIT and no running silence timer
(R138, R143). -/
abbrev ClosedIsEmpty (s : State) (p : PortId) : Prop :=
  (s.sessions[p]).isOpen = false →
    (s.queues[p]).records = [] ∧ (s.queues[p]).overflow = 0 ∧ s.capture[p] = CaptureState.fresh ∧
    (s.ports[p]).cache = none ∧ (s.ports[p]).awaiting = none ∧ (s.sessions[p]).timer = .notRunning

/-- The condition of a session's silence timer (R143): NOT_RUNNING while CLOSED, RUNNING while OPEN with the port IDLE,
SUSPENDED while OPEN with the port EXECUTING; it never has more to go than its full duration. -/
def Session.silenceLawful (x : Session) (executing : Bool) : Bool :=
  match x.timer with
  | .notRunning => !x.isOpen
  | .running n => x.isOpen && !executing && decide (n ≤ x.fullTime)
  | .suspended => x.isOpen && executing

/-- A frame under assembly has a length of 4 to 40 and not more bytes than it (R158). -/
def Receiver.lawful (r : Receiver) : Bool :=
  match r with
  | .hunt => true
  | .length => true
  | .body n taken => lenAccepted n && decide (taken.length < n)
  | .check held _ => lenAccepted held.length

/-- The laws of one port:
* CLOSED is empty (R138) and the silence timer is in its condition (R143);
* an AWAIT waits only over an empty queue (R95, R168);
* the transmit list holds at most 4 responses not yet begun, and 3 while an AWAIT is in flight (R165); with none being
  sent none waits (R164; DEDUCED, log entry 5);
* the frame-gap timer runs exactly while a frame is under assembly, for at most 5 ms (R161);
* while LRST_n is held the session is CLOSED, the receiver in HUNT and nothing waits to be sent (R154, R155). -/
abbrev PortLawful (s : State) (p : PortId) : Prop :=
  ClosedIsEmpty s p ∧
  (s.sessions[p]).silenceLawful (s.ports[p]).awaiting.isSome = true ∧
  ((s.ports[p]).awaiting.isSome = true → (s.queues[p]).records = []) ∧
  (s.ports[p]).waiting.length ≤ (if (s.ports[p]).awaiting.isSome then 3 else 4) ∧
  ((s.ports[p]).sending = none → (s.ports[p]).waiting = []) ∧
  (s.ports[p]).receiver.lawful = true ∧
  ((s.ports[p]).gapTimer.isSome = true ↔ (s.ports[p]).receiver ≠ .hunt) ∧
  (∀ n ∈ (s.ports[p]).gapTimer, n ≤ Config.frameGap) ∧
  ((s.ports[p]).lrst = true →
    (s.sessions[p]).isOpen = false ∧ (s.ports[p]).receiver = .hunt ∧ (s.ports[p]).waiting = [])

/-- Every port is lawful. -/
abbrev PortsLawful (s : State) : Prop := ∀ p : PortId, PortLawful s p

/-! ## All of them -/

/-- The laws of the hub together. -/
abbrev HubLawful (s : State) : Prop :=
  ChannelsLawful s ∧ OwnershipLawful s ∧ LinesLawful s ∧ QueuesLawful s ∧ RingsLawful s ∧ PortsLawful s

/-! ## What the part sends (R164, R178, R182, R184) -/

/-- The kinds whose OK carries no results (R182). -/
def silentKinds : List Kind :=
  [.chanConfig, .chanPreset, .chanHome, .chanClearFault, .zoneDisarm, .zoneDelete, .capSubscribe, .capPolicy, .release,
   .outSet, .closeSession, .nop, .hubReset, .cancel]

/-- The results are those that the tables of R182 give to the status and, for OK and HELD, the kind. -/
def Response.laidOut (r : Response) : Bool :=
  let ok (k : Kind) : Bool := r.status == .ok && r.kind == k.code
  match r.results with
  | .none =>
    if r.status == .ok then (silentKinds.map Kind.code).contains r.kind
    else r.status != .noSession && r.status != .alreadyOpen && r.status != .held && r.status != .stale
  | .closeCause _ => r.status == .noSession
  | .alreadyOpen _ _ => r.status == .alreadyOpen
  | .holder _ => r.status == .held && r.kind == Kind.claim.code
  | .heldResource _ _ => r.status == .held && r.kind == Kind.hubReset.code
  | .oldestSeq _ => r.status == .stale
  | .channelRecord _ _ _ _ => ok .chanRead
  | .times _ _ => ok .timeRead
  | .zoneCreated _ _ => ok .zoneCreate
  | .zoneState _ => ok .zoneArm
  | .zoneRecord _ _ => ok .zoneRead
  | .zoneList _ => ok .zoneList
  | .captureSeq _ => ok .capture
  | .captureRecord _ => ok .capFetch
  | .recordsLeft _ => ok .capAck
  | .captureStatus _ _ _ _ _ => ok .capStatus
  | .events _ _ => ok .evtRead
  | .attention _ _ => ok .evtAttn
  | .claimed _ _ => ok .claim
  | .claimList _ => ok .claimList
  | .drive _ => ok .outMode
  | .outRecord _ _ => ok .outRead
  | .opened _ _ => ok .openSession
  | .depth _ => ok .await
  | .ident _ => ok .ident
  | .portStatus _ _ _ _ _ _ _ _ => ok .portStatus

/-- A response is one that a response frame may hold: its results are those of its status and kind (R178, R182), and its
body has at most 120 bytes (R164, R179). -/
abbrev Response.Fits (r : Response) : Prop := r.laidOut = true ∧ r.body.length ≤ 120

/-- Every response that a port caches, sends or holds to be sent fits its frame. -/
abbrev ResponsesFit (s : State) : Prop :=
  ∀ p : PortId,
    (∀ r ∈ (s.ports[p]).cache, r.Fits) ∧ (∀ r ∈ (s.ports[p]).sending, r.Fits) ∧ (∀ r ∈ (s.ports[p]).waiting, r.Fits)

/-- A count lies in the linear range (R2). -/
def countInRange (n : Int) : Bool := decide (Config.countMin ≤ n ∧ n ≤ Config.countMax)

/-- Turns lie in their range (R2). -/
def turnsInRange (n : Int) : Bool := decide (Config.turnsMin ≤ n ∧ n ≤ Config.turnsMax)

/-- The numbers that an event carries lie in the ranges of R2, so that its fields hold them whole (R179). -/
def Event.inRange : Event → Bool
  | .zoneEnter _ n t => countInRange n && turnsInRange t
  | .zoneExit _ n t => countInRange n && turnsInRange t
  | .indexMark _ n t => countInRange n && turnsInRange t
  | .channelFault _ n => countInRange n
  | .zoneResync _ _ => true
  | .captureReady _ => true
  | .captureLost _ => true
  | .homed _ => true
  | .channelRecovered _ => true
  | .channelReconfigured _ => true
  | .claimFreed _ => true
  | .overflow _ => true

/-- The numbers that results carry lie in the ranges the spec gives them (0.4, R2, R37, R67, R136), so that their fields
hold them whole (R179): a silence setting that is present is not 0. -/
def Results.inRange : Results → Bool
  | .none => true
  | .closeCause _ => true
  | .alreadyOpen _ n => n != some 0
  | .holder _ => true
  | .heldResource _ _ => true
  | .oldestSeq _ => true
  | .channelRecord _ x _ _ =>
    decide (x.modulus ≤ Config.maxModulus) && countInRange x.count && turnsInRange x.turns &&
      x.mark.all fun m => countInRange m.count && turnsInRange m.turns
  | .times _ _ => true
  | .zoneCreated _ _ => true
  | .zoneState _ => true
  | .zoneRecord _ z => countInRange z.low && countInRange z.high && decide (z.hysteresis ≤ 65535)
  | .zoneList zs => decide (zs.length ≤ 32)
  | .captureSeq _ => true
  | .captureRecord r => r.entries.all fun e => countInRange e.count && turnsInRange e.turns
  | .recordsLeft n => decide (n ≤ Config.ringSize)
  | .captureStatus fill _ _ _ _ => decide (fill ≤ Config.ringSize)
  | .events rs n => decide (rs.length ≤ 8 ∧ n ≤ Config.queueSize) && rs.all fun r => r.event.inRange
  | .attention _ n => decide (n ≤ Config.queueSize)
  | .claimed _ _ => true
  | .claimList _ => true
  | .drive _ => true
  | .outRecord _ _ => true
  | .opened _ _ => true
  | .depth n => decide (n ≤ Config.queueSize)
  | .ident _ => true
  | .portStatus _ _ _ _ _ _ _ _ => true

/-- The bytes that results take, by the sizes of R182 and R185. -/
def Results.size : Results → Nat
  | .none => 0
  | .closeCause _ => 1
  | .alreadyOpen _ _ => 2
  | .holder _ => 1
  | .heldResource _ _ => 2
  | .oldestSeq _ => 2
  | .channelRecord _ _ _ _ => 37
  | .times _ _ => 8
  | .zoneCreated _ _ => 2
  | .zoneState _ => 1
  | .zoneRecord _ _ => 25
  | .zoneList zs => 1 + 3 * zs.length
  | .captureSeq _ => 2
  | .captureRecord r => 9 + 9 * r.entries.length
  | .recordsLeft _ => 1
  | .captureStatus _ _ _ _ _ => 10
  | .events rs _ => 2 + 13 * rs.length
  | .attention _ _ => 2
  | .claimed _ _ => 5
  | .claimList _ => 98
  | .drive _ => 1
  | .outRecord _ _ => 11
  | .opened _ _ => 2
  | .depth _ => 1
  | .ident _ => 10
  | .portStatus _ _ _ _ _ _ _ _ => 15

/-- Results but for the increments left of a pulse timer, of which the part sends whether it runs (R134, R183). -/
def Results.asSent (x : Results) : Results :=
  match x with
  | .outRecord who l => .outRecord who { l with timer := l.timer.map fun _ => 0 }
  | y => y

/-! ## The words of the claims

What the rules say of whole tables at once. The meanings reach the same tables record by record; the claims compare the
two. -/

/-- A request frame that passes every check of the port and the session and is handed to its owning block (R155, R165,
R166, R139, R140): LRST_n is not held, the transmit list holds 2 or fewer, the tag is not the cached one, the port is
IDLE or the kind is CANCEL, the body has the kind's length, and the session passes the kind and the epoch. -/
abbrev Admitted (s : State) (h : Head) (k : Kind) : Prop :=
  (s.ports[h.port]).lrst = false ∧
  (s.ports[h.port]).waiting.length ≤ 2 ∧
  (∀ r ∈ (s.ports[h.port]).cache, r.tag ≠ h.tag) ∧
  ((s.ports[h.port]).awaiting = none ∨ k = .cancel) ∧
  h.len = k.bodyLen ∧
  (if (s.sessions[h.port]).isOpen then k = .openSession ∨ h.epoch = (s.sessions[h.port]).epoch
   else k = .openSession ∨ k = .ident ∨ k = .portStatus)

/-- A request answered with a status and results in a state that its execution has left (R164, R173). -/
def State.reply (s : State) (h : Head) (k : Kind) (status : Status) (results : Results) : State :=
  s.answer h.port h.tag k.code status results

/-- A request refused: its frame accepted, the refusal answered without results, nothing else (R178). -/
def State.refused (s : State) (h : Head) (k : Kind) (status : Status) : State :=
  (s.frameAccepted h.port).reply h k status .none

/-- A queue after records handed to it one after another: those that find room are appended (R95), the others counted
(R96); a store makes ATTN_n show the attention enable, the session being OPEN (R102). -/
def EventQueue.filled (q : EventQueue) (rs : List EventRecord) : EventQueue :=
  let room := Config.queueSize - q.records.length
  { q with
    records := q.records ++ rs.take room
    overflow := BitVec.ofNat 16 (min 65535 (q.overflow.toNat + (rs.length - room)))
    attn := if rs.take room = [] then q.attn else q.enabled }

/-- The events of one happening posted to the sessions that are OPEN, with the happening's stamp (R32, R92). -/
def State.posted (s : State) (es : PortId → List Event) : State :=
  { s with queues := Vector.ofFn fun p =>
      if (s.sessions[p]).isOpen then (s.queues[p]).filled ((es p).map fun e => ⟨e, s.timestamp⟩) else s.queues[p] }

/-- One event for every session but the requester's (R94). -/
def toOthers (p : PortId) (e : Event) : PortId → List Event := fun q => if q = p then [] else [e]

/-- The happening between two states has stored records in a session's queue. -/
abbrev stored (before after : State) (p : PortId) : Prop :=
  (before.queues[p]).records.length < (after.queues[p]).records.length

/-- A port at the end of a happening: its AWAIT, if records have been stored in its queue, answered OK with the depth and
cached, the port IDLE (R95, R169). -/
def endedPort (before after : State) (p : PortId) : Port :=
  match (after.ports[p]).awaiting with
  | none => after.ports[p]
  | some a =>
    if stored before after p then
      let r : Response := ⟨a.tag, .ok, false, Kind.await.code, .depth (after.queues[p]).records.length⟩
      { ({ after.ports[p] with awaiting := none } : Port).send r with
        cache := if (after.sessions[p]).isOpen then some r else (after.ports[p]).cache }
    else after.ports[p]

/-- A session at the end of a happening: its silence timer started again when its AWAIT has ended (R144). -/
def endedSession (before after : State) (p : PortId) : Session :=
  if (after.ports[p]).awaiting.isSome ∧ stored before after p then
    { after.sessions[p] with timer := .running (after.sessions[p]).fullTime }
  else after.sessions[p]

/-- The end of a happening: the AWAITs whose queues it has stored records into ended (R169). -/
def State.awaitsEnded (before after : State) : State :=
  { after with
    ports := Vector.ofFn (endedPort before after)
    sessions := Vector.ofFn (endedSession before after) }

/-- The state after the teardown of an OPEN session (R148): its zones gone, its claims freed with their lines at the
safe level and CLAIM_FREED posted to the others in ascending resource id, its capture state and its queue cleared, its
retry cache empty, its record CLOSED with the cause. -/
def State.tornDown (s : State) (p : PortId) (cause : CloseCause) : State :=
  let t := s.posted fun q =>
    if q = p then [] else ((List.finRange 14).filter fun r => s.holder r = some p).map .claimFreed
  { t with
    zones := Vector.ofFn fun z => (s.zones[z]).filter fun x => x.owner ≠ p
    claims := Vector.ofFn fun r => if s.holder r = some p then none else s.claims[r]
    lines := Vector.ofFn fun k =>
      if s.holder (lineRes k) = some p then OutLine.defaults (s.lines[k]).safe else s.lines[k]
    capture := s.capture.set p CaptureState.fresh
    queues := t.queues.set p { s.queues[p] with records := [], overflow := 0, attn := false }
    ports := s.ports.set p { s.ports[p] with cache := none }
    sessions := s.sessions.set p { s.sessions[p] with isOpen := false, timer := .notRunning, cause := cause } }

/-- A channel after a step of d, +1 or -1: a linear count wraps in 32 bits and sets the wrapped flag (R9); a modulus
count goes round, with a revolution counted in 16 bits (R10). -/
def Channel.afterStep (x : Channel) (d : Int) : Channel :=
  if x.modulus = 0 then
    { x with
      count := (x.count + d).bmod (2 ^ 32)
      wrapped := x.wrapped || decide ((x.count + d).bmod (2 ^ 32) ≠ x.count + d) }
  else
    { x with
      count := (x.count + d) % (x.modulus : Int)
      turns := (x.turns + (x.count + d) / (x.modulus : Int)).bmod (2 ^ 16) }

/-- The state that a raw evaluation gives a zone in a state of the hub (R44). -/
def State.rawState (s : State) (x : Zone) : ZoneState :=
  if inWindow (s.channels[x.channel]).modulus x.low x.high (s.channels[x.channel]).count then .inside else .outside

/-- A zone after a discontinuity of a channel: raw-evaluated if it names the channel and is armed (R51). -/
def State.zoneResynced (s : State) (c : ChanId) (x : Zone) : Zone :=
  if x.channel = c ∧ x.armed then { x with state := s.rawState x } else x

/-- The zone in a slot, where a discontinuity of a channel changes its state (R51). -/
def State.resyncedZone (s : State) (c : ChanId) (z : ZoneId) : Option Zone :=
  (s.zones[z]).filter fun x => (s.zoneResynced c x).state ≠ x.state

/-- The state after a discontinuity of a channel whose new count is in place (R51, R52): the zones raw-evaluated,
ZONE_RESYNC posted to the owner of each zone that changed in ascending zone id, and every FOLLOW line that a changed zone
follows driven from the new states. -/
def State.resynced (s : State) (c : ChanId) : State :=
  let t := s.posted fun p =>
    (List.finRange 32).filterMap fun z =>
      ((s.resyncedZone c z).filter fun x => x.owner = p).map fun x => .zoneResync z (s.zoneResynced c x).state
  let u := { t with zones := Vector.ofFn fun z => (s.zones[z]).map (s.zoneResynced c) }
  { u with
    lines := Vector.ofFn fun k =>
      if s.lineHeld k ∧ (s.lines[k]).mode = .follow ∧
          ∃ z : ZoneId, ∃ x ∈ s.resyncedZone c z, x.link = some ⟨k, true⟩ then
        (s.lines[k]).driven (u.followDrive k)
      else s.lines[k] }

/-- A channel whose A/B levels are new and whose count moves by a step of d: handed to the zone table as a step, or as a
discontinuity when the step is a linear wrap (R9, R11, R18). -/
def State.counted (s : State) (c : ChanId) (levels : Levels) (d : Int) : State :=
  let x : Channel := { s.channels[c] with levels := levels }
  let y := x.afterStep d
  if x.modulus = 0 ∧ y.count ≠ x.count + d then (s.setChannel c y).resynced c else (s.setChannel c y).zoneStep c

/-- A ring after a capture meets it, and the events posted (the table of 4.4.1): a ring with room stores; a full ring
under KEEP_NEWEST discards its oldest record, counts the loss and stores; a full ring under KEEP_OLDEST counts the loss,
or, for a request, does nothing. A loss posts CAPTURE_LOST while the loss-reported flag is clear, and sets it. -/
def CaptureState.meets (x : CaptureState) (r : CaptureRecord) : CaptureState × List Event :=
  let stored : CaptureRecord := { r with seq := x.seqCounter }
  let lost : Half := BitVec.ofNat 16 (min 65535 (x.lost.toNat + 1))
  let lossEvents : List Event := if x.lossReported then [] else [.captureLost lost]
  if x.ring.length < 4 then
    ({ x with ring := x.ring ++ [stored], seqCounter := x.seqCounter + 1 }, [.captureReady x.seqCounter])
  else if x.policy = .keepNewest then
    ({ x with ring := x.ring.drop 1 ++ [stored], seqCounter := x.seqCounter + 1, lost := lost, lossReported := true },
      lossEvents ++ [.captureReady x.seqCounter])
  else if r.cause = .request then (x, [])
  else ({ x with lost := lost, lossReported := true }, lossEvents)

/-- The record of a capture taken now, its number not yet given (R67, R68). -/
def State.captureNow (s : State) (cause : CaptureCause) (mask : Byte) : CaptureRecord :=
  { seq := 0, cause := cause, stamp := s.timestamp, mask := mask
    entries := ((List.finRange 8).filter (maskNames mask)).map fun c =>
      ⟨c, (s.channels[c]).state, (s.channels[c]).count, (s.channels[c]).turns, (s.channels[c]).referenced⟩ }

/-- What the zones of one session do on a step of a channel whose new count is in place, slot by slot: from the ring so
far and the events posted so far, those after the slot. A zone of the session on the channel that enters or exits gives
its event, if its action set asks for one, and then, if the set's mask is not 0, a capture of this instant to the ring,
with the events of the ring (R46, R48, R49, R78). -/
def State.slotWork (s : State) (c : ChanId) (p : PortId) (done : CaptureState × List Event) (z : ZoneId) :
    CaptureState × List Event :=
  let x := s.channels[c]
  match (s.zones[z]).filter fun y => y.channel = c ∧ y.owner = p with
  | none => done
  | some y =>
    let act (a : ActionSet) (e : Event) (cause : CaptureCause) : CaptureState × List Event :=
      let ring := if a.mask = 0 then (done.1, []) else done.1.meets (s.captureNow cause a.mask)
      (ring.1, done.2 ++ (if a.event then [e] else []) ++ ring.2)
    match y.onStep x.modulus x.count with
    | none => done
    | some .entry => act y.onEnter (.zoneEnter z x.count x.turns) (.zoneEnter z)
    | some .exit => act y.onExit (.zoneExit z x.count x.turns) (.zoneExit z)

/-- The ring of one session after a step of a channel, and the events that the step posts to it, its zones taken in
ascending zone id (R46). -/
def State.stepWork (s : State) (c : ChanId) (p : PortId) : CaptureState × List Event :=
  (List.finRange 32).foldl (s.slotWork c p) (s.capture[p], [])

/-- An AWAIT in flight answered, its port IDLE, the silence timer started again and the answer cached while the session
is OPEN (R144, R167, R173). -/
def State.awaitAnswered (s : State) (p : PortId) (a : Awaiting) (status : Status) (results : Results) : State :=
  let r : Response := ⟨a.tag, status, false, Kind.await.code, results⟩
  { s with
    ports := s.ports.set p
      { ({ s.ports[p] with awaiting := none } : Port).send r with
        cache := if (s.sessions[p]).isOpen then some r else (s.ports[p]).cache }
    sessions := s.sessions.set p { s.sessions[p] with timer := .running (s.sessions[p]).fullTime } }

/-- A link error counted, the frame under assembly discarded: the receiver in HUNT with its gap timer stopped (R158,
R160, R161). -/
def Port.discarded (x : Port) : Port := { x with receiver := .hunt, gapTimer := none }

/-- A count of link errors, losses or overruns after one more: it stays at 65,535 (R162). -/
def oneMore (n : Half) : Half := BitVec.ofNat 16 (min 65535 (n.toNat + 1))

/-- Bytes taken from a receive line one after another, each a happening of its own. -/
def takeBytes (p : PortId) : List Byte → State → Host.Outcome State Fault Refusal
  | [], s => .next s
  | b :: rest, s =>
    match exec (.frameByteTaken p b) s with
    | .next t => takeBytes p rest t
    | .fault e => .fault e
    | .refused e => .refused e

end Sys2Proof.Machine
end

