-- ==== Sys2Proof/Certificates/Slice0/Obligations.lean ====
section
/-! DEFINITION. The statements about the hub, for the provers. The words they are written in stand in
Sys2Proof/Safety.lean: what an accepted, admitted, answered and refused frame is, what posting events, tearing a session
down, counting a step and a discontinuity do to whole tables, and what the end of a happening does to the AWAITs in
flight. A statement about a command names the whole state it leaves, so that it is its own frame. -/

open Sys2Proof Sys2Proof.Machine

/-! ## The machine -/

/-- The command at the front of the queue runs on the state with the queue's rest. On an empty queue the hub idles, which
is the model's choice (log entry 2). -/
def Obligations.StepRunsTheFrontCommand : Prop :=
  (∀ (c : Instr) (rest : List Instr) (s : State), s.pending = c :: rest → step s = exec c { s with pending := rest }) ∧
  (∀ s : State, s.pending = [] → step s = .next s)

/-- Every command is answered with a next state, with every operand in every state, and none reaches the queue of
commands: the part stops on nothing. That a command whose occasion is absent also answers a next state, with nothing
changed, is the model's choice (log entry 3), and the queue of commands is the model's own field (log entry 2). -/
def Obligations.EveryCommandCompletes : Prop :=
  ∀ (c : Instr) (s : State), ∃ t, exec c s = .next t ∧ t.pending = s.pending

/-- POWER_ON_RESET leaves every record at the value its chapter gives for power-on reset, over the levels at the pins
(R1, R26, R28, R36, R65, R76, R89, R106, R107, R118, R119, R136, R157). State.reset is that state for pins that are all
low with no LRST_n asserted, which is the model's choice (log entry 1). -/
def Obligations.PowerOnResetGivesTheResetValues : Prop :=
  (∀ (pins : Pins) (s : State), ∃ t, exec (.powerOnReset pins) s = .next t ∧ t.timestamp = 0 ∧
    (∀ c : ChanId, t.channels[c] =
      { mode := .off, modulus := 0, invert := false, gateUse := false, indexMark := false, state := .off, count := 0,
        turns := 0, referenced := false, wrapped := false, homing := false, mark := none, faultCount := 0,
        levels := ⟨pins.a.getLsbD c, pins.b.getLsbD c, pins.i.getLsbD c, pins.g.getLsbD c⟩ }) ∧
    (∀ z : ZoneId, t.zones[z] = none) ∧
    (∀ p : PortId, t.capture[p] =
      { ring := [], seqCounter := 0, policy := .keepOldest, lost := 0, lossReported := false, subs := #v[none, none] }) ∧
    (∀ n : CapId, t.capLevels[n] = pins.cap.getLsbD n) ∧
    (∀ p : PortId, t.queues[p] = { records := [], overflow := 0, enabled := true, attn := false }) ∧
    (∀ r : ResId, t.claims[r] = none) ∧
    (∀ k : LineId, t.lines[k] =
      { polarity := .activeHigh, mode := .direct, direct := false, width := 1000, retrigger := .ignore, timer := none,
        drive := .safe, safe := pins.safe.getLsbD k, pin := pins.safe.getLsbD k }) ∧
    (∀ p : PortId, t.sessions[p] =
      { isOpen := false, epoch := 0, silence := none, timer := .notRunning, cause := .none }) ∧
    (∀ p : PortId, t.ports[p] =
      { receiver := .hunt, gapTimer := none, awaiting := none, cache := none, crcErrors := 0, framingErrors := 0,
        overruns := 0, waiting := [], sending := none, lrst := pins.lrst.getLsbD p }) ∧
    t.pending = s.pending) ∧
  (∀ s : State, exec (.powerOnReset ⟨0, 0, 0, 0, 0, 0, 0⟩) s = .next { State.reset with pending := s.pending })

/-! ## Laws that every step keeps -/

/-- The hub after reset obeys all its laws. -/
def Obligations.ResetIsLawful : Prop := HubLawful State.reset ∧ ResponsesFit State.reset

/-- Every step keeps the laws of the channel records: counts and turns in their ranges, OFF exactly in mode OFF, HELD and
COUNTING by the gate, FAULT in QUAD alone with homing disarmed (R2, R3, R10, R12, R13). -/
def Obligations.StepKeepsChannelsLawful : Prop :=
  ∀ s t : State, ChannelsLawful s → step s = .next t → ChannelsLawful t

/-- Every step keeps the laws of ownership: every zone is owned by an OPEN session on a channel that is not OFF, with
bounds that fit its modulus, armed exactly when it is not IDLE, its link to a line its owner holds; every holder of a
claim is OPEN (R36, R37, R39, R40, R43, R108). -/
def Obligations.StepKeepsOwnership : Prop :=
  ∀ s t : State, OwnershipLawful s → step s = .next t → OwnershipLawful t

/-- Every step keeps the laws of the output lines: a free line is at its defaults and its safe level, a held line is
driven as its mode says and never SAFE, and the pin shows the drive (R118 to R121, R124). The premise is the law of
ownership, which every step keeps. -/
def Obligations.StepKeepsLinesDrivenByMode : Prop :=
  ∀ s t : State, OwnershipLawful s → LinesLawful s → step s = .next t → LinesLawful t

/-- Every step keeps the laws of the event queues: at most 16 records, losses counted only while 16 are held, and ATTN_n
asserted exactly when the session is OPEN, attention ENABLED and the queue non-empty (R88, R96, R102). -/
def Obligations.StepKeepsQueuesLawful : Prop :=
  ∀ s t : State, QueuesLawful s → step s = .next t → QueuesLawful t

/-- Every step keeps the laws of the capture rings: at most 4 records numbered consecutively up to the counter, each with
one entry per channel of its mask, and the loss-reported flag set exactly when losses are counted (R66, R67, R70, R74). -/
def Obligations.StepKeepsRingsLawful : Prop :=
  ∀ s t : State, RingsLawful s → step s = .next t → RingsLawful t

/-- Every step keeps the laws of the sessions and ports: a CLOSED session owns nothing that waits, the silence timer runs
exactly while its session is OPEN and its port IDLE, an AWAIT waits only over an empty queue, the transmit list holds at
most 4 and its order, the frame-gap timer runs exactly while a frame is under assembly, and a port held in reset is
closed and silent (R95, R138, R143, R155, R161, R164, R165). That nothing waits while nothing is being sent rests on the
model's reading that an idle line begins a response at once (DEDUCED, log entry 5). The premise is the law of
ownership. -/
def Obligations.StepKeepsPortsLawful : Prop :=
  ∀ s t : State, OwnershipLawful s → PortsLawful s → step s = .next t → PortsLawful t

/-- Every step keeps each response that a port caches, sends or holds to be sent within the 120 bytes of a response body
and with the results that R182 gives to its status and kind (R164, R178, R179, R182). The premise is the law of the capture rings, which every step keeps. -/
def Obligations.StepKeepsResponsesWithinTheirFrames : Prop :=
  ∀ s t : State, RingsLawful s → ResponsesFit s → step s = .next t → ResponsesFit t

/-! ## Counting channels -/

/-- The forward sequence of (A, B) in QUAD (R5). -/
def quadForward : List ((Bool × Bool) × (Bool × Bool)) :=
  [((false, false), (true, false)), ((true, false), (true, true)), ((true, true), (false, true)),
   ((false, true), (false, false))]

/-- A transition of one input in QUAD and COUNTING is one step: up along the forward sequence, down against it, reversed
by invert. The step moves the count (R9, R10) and is handed to the zone table (R5, R11). -/
def Obligations.QuadCountsByPhase : Prop :=
  ∀ (c : ChanId) (change : PairChange) (s : State),
    (s.channels[c]).Lawful → (s.channels[c]).mode = .quad → (s.channels[c]).state = .counting → change ≠ .both →
    let old := (s.channels[c]).levels
    let new := old.changed change
    let forward := quadForward.contains ((old.a, old.b), (new.a, new.b))
    exec (.abPairTransition c change) s =
      .next (s.awaitsEnded (s.counted c new (if forward = (s.channels[c]).invert then -1 else 1)))

/-- In EVENT_DIR a rise of A is one step, up if B is high after the transition and down if it is low, reversed by invert;
a fall of A, and a transition of B alone, give no step (R7). -/
def Obligations.EventDirCountsRisesOfA : Prop :=
  ∀ (c : ChanId) (change : PairChange) (s : State),
    (s.channels[c]).Lawful → (s.channels[c]).mode = .eventDir → (s.channels[c]).state = .counting →
    let old := (s.channels[c]).levels
    let new := old.changed change
    exec (.abPairTransition c change) s =
      if old.a = false ∧ new.a = true then
        .next (s.awaitsEnded (s.counted c new (if new.b = (s.channels[c]).invert then -1 else 1)))
      else .next (s.setChannel c { s.channels[c] with levels := new })

/-- In EVENT_UP a rise of A is one step up, or one step down when invert is set; B is tracked and not used (R8). -/
def Obligations.EventUpCountsRisesOfA : Prop :=
  ∀ (c : ChanId) (change : PairChange) (s : State),
    (s.channels[c]).Lawful → (s.channels[c]).mode = .eventUp → (s.channels[c]).state = .counting →
    let old := (s.channels[c]).levels
    let new := old.changed change
    exec (.abPairTransition c change) s =
      if old.a = false ∧ new.a = true then
        .next (s.awaitsEnded (s.counted c new (if (s.channels[c]).invert = true then -1 else 1)))
      else .next (s.setChannel c { s.channels[c] with levels := new })

/-- A transition of both inputs in QUAD and COUNTING faults the channel: the count and turns stay, referenced and homing
clear, the fault count adds 1 up to 255, the levels take the new pair, and CHANNEL_FAULT with the count goes to every
open session; nothing else changes but the AWAITs that the event ends (R6, R13). -/
def Obligations.IllegalTransitionFaults : Prop :=
  ∀ (c : ChanId) (s : State), (s.channels[c]).mode = .quad → (s.channels[c]).state = .counting →
    let x := s.channels[c]
    let y : Channel :=
      { x with
        state := .fault, referenced := false, homing := false
        faultCount := BitVec.ofNat 8 (min 255 (x.faultCount.toNat + 1))
        levels := { x.levels with a := !x.levels.a, b := !x.levels.b } }
    exec (.abPairTransition c .both) s =
      .next (s.awaitsEnded ((s.setChannel c y).posted fun _ => [.channelFault c x.count]))

/-- In OFF, HELD and FAULT a transition of the A/B pair, whatever it is, and a change of I only update the input levels;
so does a fall of I in every state (R4, R6, R12, R14, R15, R16). -/
def Obligations.SuspendedChannelOnlyTracks : Prop :=
  ∀ (c : ChanId) (s : State),
    let x := s.channels[c]
    (x.state ≠ .counting → ∀ change : PairChange,
      exec (.abPairTransition c change) s = .next (s.setChannel c { x with levels := x.levels.changed change })) ∧
    (x.state ≠ .counting ∨ x.levels.i = true →
      exec (.indexEdge c) s = .next (s.setChannel c { x with levels := { x.levels with i := !x.levels.i } }))

/-- A rise of I in COUNTING: with index_mark set the mark is stored and INDEX_MARK posted to the holder of the channel's
claim; with homing armed the count and turns become 0, referenced is set, homing cleared and HOMED posted to every open
session, and the zones are handed a discontinuity. With both, the mark comes first (R15, R16). -/
def Obligations.IndexEdgeMarksThenHomes : Prop :=
  ∀ (c : ChanId) (s : State), (s.channels[c]).state = .counting → (s.channels[c]).levels.i = false →
    let x := s.channels[c]
    let marked : Channel :=
      { x with
        levels := { x.levels with i := true }
        mark := if x.indexMark then some ⟨x.count, x.turns, s.timestamp⟩ else x.mark }
    let notice : PortId → List Event := fun p =>
      if x.indexMark = true ∧ s.holder (chanRes c) = some p then [.indexMark c x.count x.turns] else []
    exec (.indexEdge c) s =
      if x.homing = true then
        let homed : Channel := { marked with count := 0, turns := 0, referenced := true, homing := false }
        .next (s.awaitsEnded (((s.setChannel c homed).posted fun p => notice p ++ [.homed c]).resynced c))
      else .next (s.awaitsEnded ((s.setChannel c marked).posted notice))

/-- A change of G is kept in the input levels; with gate_use set it makes a COUNTING or HELD channel HELD when G is low
and COUNTING when it is high; OFF and FAULT stay, and without gate_use nothing else happens (R12). -/
def Obligations.GateHoldsAndReleases : Prop :=
  ∀ (c : ChanId) (s : State),
    let x := s.channels[c]
    let g := !x.levels.g
    exec (.gateChange c) s =
      .next (s.setChannel c
        { x with
          levels := { x.levels with g := g }
          state := if x.gateUse = true ∧ (x.state = .counting ∨ x.state = .held) then
              if g = true then .counting else .held
            else x.state })

/-- CHAN_CONFIG, by the order of its checks: a channel above 7, a requester that does not hold the claim, a byte or a
modulus outside its codes, and mode OFF or another modulus under a zone are refused; else the five fields are stored and,
when the mode or the modulus changes, count and turns become 0, the flags clear, the mark is absent, the state follows
the gate and the zones are handed a discontinuity; otherwise a COUNTING or HELD channel follows its gate and the rest
stays. CHANNEL_RECONFIGURED goes to every other open session, before any ZONE_RESYNC (R19, R20, R21). -/
def Obligations.ChanConfigSetsTheChannel : Prop :=
  ∀ (h : Head) (channel mode : Byte) (modulus : Word) (invert gateUse indexMark : Byte) (s : State),
    Admitted s h .chanConfig →
    let i := Instr.chanConfig h channel mode modulus invert gateUse indexMark
    (8 ≤ channel.toNat → exec i s = .next (s.refused h .chanConfig .badArg)) ∧
    ∀ c : ChanId, channel.toNat = c →
      let x := s.channels[c]
      let known := mode.toNat ≤ 3 ∧ modulus.toNat ≠ 1 ∧ modulus.toNat ≤ 16777216 ∧ invert.toNat ≤ 1 ∧
        gateUse.toNat ≤ 1 ∧ indexMark.toNat ≤ 1
      let inUse := (∃ z : ZoneId, ∃ y ∈ s.zones[z], y.channel = c) ∧
        (mode.toNat = 0 ∧ x.mode ≠ .off ∨ modulus.toNat ≠ x.modulus)
      (s.holder (chanRes c) ≠ some h.port → exec i s = .next (s.refused h .chanConfig .notHolder)) ∧
      (s.holder (chanRes c) = some h.port → ¬ known → exec i s = .next (s.refused h .chanConfig .badArg)) ∧
      (s.holder (chanRes c) = some h.port → known → inUse → exec i s = .next (s.refused h .chanConfig .inUse)) ∧
      (s.holder (chanRes c) = some h.port → known → ¬ inUse → ∀ m ∈ chanModeOf mode,
        let gated : ChanState := if gateUse.toNat = 1 ∧ x.levels.g = false then .held else .counting
        let set : Channel :=
          { x with
            mode := m, modulus := modulus.toNat, invert := invert.toNat = 1, gateUse := gateUse.toNat = 1
            indexMark := indexMark.toNat = 1 }
        exec i s =
          if m ≠ x.mode ∨ modulus.toNat ≠ x.modulus then
            let y : Channel :=
              { set with
                count := 0, turns := 0, referenced := false, wrapped := false, homing := false, mark := none
                state := if m = .off then .off else gated }
            let t := ((s.frameAccepted h.port).setChannel c y).posted (toOthers h.port (.channelReconfigured c))
            .next (s.awaitsEnded ((t.resynced c).reply h .chanConfig .ok .none))
          else
            let y : Channel := { set with state := if x.state = .counting ∨ x.state = .held then gated else x.state }
            let t := ((s.frameAccepted h.port).setChannel c y).posted (toOthers h.port (.channelReconfigured c))
            .next (s.awaitsEnded (t.reply h .chanConfig .ok .none)))

/-- CHAN_PRESET, by the order of its checks: a channel above 7, a requester that does not hold the claim, mode OFF, and a
count outside 0 to M-1 on a modulus channel or turns not 0 on a linear one are refused; else the count and turns are
loaded, referenced set and wrapped cleared, whatever the state, CHANNEL_RECONFIGURED posted to every other open session
and the zones handed a discontinuity (R19, R22). -/
def Obligations.ChanPresetLoadsThePosition : Prop :=
  ∀ (h : Head) (channel : Byte) (count : Word) (turns : Half) (s : State), Admitted s h .chanPreset →
    let i := Instr.chanPreset h channel count turns
    (8 ≤ channel.toNat → exec i s = .next (s.refused h .chanPreset .badArg)) ∧
    ∀ c : ChanId, channel.toNat = c →
      let x := s.channels[c]
      let fits := if x.modulus = 0 then turns.toInt = 0 else 0 ≤ count.toInt ∧ count.toInt < x.modulus
      exec i s =
        if s.holder (chanRes c) ≠ some h.port then .next (s.refused h .chanPreset .notHolder)
        else if x.mode = .off then .next (s.refused h .chanPreset .channelOff)
        else if ¬ fits then .next (s.refused h .chanPreset .badArg)
        else
          let y : Channel := { x with count := count.toInt, turns := turns.toInt, referenced := true, wrapped := false }
          let t := ((s.frameAccepted h.port).setChannel c y).posted (toOthers h.port (.channelReconfigured c))
          .next (s.awaitsEnded ((t.resynced c).reply h .chanPreset .ok .none))

/-- CHAN_HOME, by the order of its checks: a channel above 7, a requester that does not hold the claim, a channel that is
OFF or in FAULT, and a cancel byte other than 0 and 1 are refused; else homing is armed, or disarmed with the cancel
flag, and nothing else changes (R19, R23, R186). -/
def Obligations.ChanHomeArmsAndCancels : Prop :=
  ∀ (h : Head) (channel cancel : Byte) (s : State), Admitted s h .chanHome →
    let i := Instr.chanHome h channel cancel
    (8 ≤ channel.toNat → exec i s = .next (s.refused h .chanHome .badArg)) ∧
    ∀ c : ChanId, channel.toNat = c →
      let x := s.channels[c]
      exec i s =
        if s.holder (chanRes c) ≠ some h.port then .next (s.refused h .chanHome .notHolder)
        else if x.state = .off then .next (s.refused h .chanHome .channelOff)
        else if x.state = .fault then .next (s.refused h .chanHome .channelFault)
        else if 2 ≤ cancel.toNat then .next (s.refused h .chanHome .badArg)
        else
          .next (((s.frameAccepted h.port).setChannel c { x with homing := cancel.toNat = 0 }).reply h .chanHome .ok .none)

/-- CHAN_CLEAR_FAULT on a channel in FAULT sets its state by the gate and posts CHANNEL_RECOVERED to every open session,
the requester included; count, turns, flags, mark and fault count stay. In any other state it changes nothing. A channel
above 7 and a requester that does not hold the claim are refused (R19, R24). -/
def Obligations.ChanClearFaultRecovers : Prop :=
  ∀ (h : Head) (channel : Byte) (s : State), Admitted s h .chanClearFault →
    let i := Instr.chanClearFault h channel
    (8 ≤ channel.toNat → exec i s = .next (s.refused h .chanClearFault .badArg)) ∧
    ∀ c : ChanId, channel.toNat = c →
      let x := s.channels[c]
      exec i s =
        if s.holder (chanRes c) ≠ some h.port then .next (s.refused h .chanClearFault .notHolder)
        else if x.state = .fault then
          let y : Channel := { x with state := if x.gateUse = true ∧ x.levels.g = false then .held else .counting }
          let t := ((s.frameAccepted h.port).setChannel c y).posted fun _ => [.channelRecovered c]
          .next (s.awaitsEnded (t.reply h .chanClearFault .ok .none))
        else .next ((s.frameAccepted h.port).reply h .chanClearFault .ok .none)

/-! ## The time base -/

/-- One increment adds 1 to the timestamp modulo 2^32 and takes one from what is left of each timer that runs: the pulse
timers, the silence timers that are RUNNING, the AWAIT timers and the frame-gap timers. It changes nothing else (R29, R35,
R144). That a timer with none left stays due, at 0, until its running out is taken is the model's choice (log
entry 3). -/
def Obligations.IncrementAdvancesEveryTimer : Prop :=
  ∀ s : State, ∃ t, exec .timestampIncrement s = .next t ∧
    t.timestamp.toNat = (s.timestamp.toNat + 1) % 2 ^ 32 ∧
    (∀ k : LineId, t.lines[k] = { s.lines[k] with timer := (s.lines[k]).timer.map (· - 1) }) ∧
    (∀ p : PortId, t.sessions[p] =
      { s.sessions[p] with
        timer := match (s.sessions[p]).timer with
          | .running n => .running (n - 1)
          | .suspended => .suspended
          | .notRunning => .notRunning }) ∧
    (∀ p : PortId, t.ports[p] =
      { s.ports[p] with
        gapTimer := (s.ports[p]).gapTimer.map (· - 1)
        awaiting := (s.ports[p]).awaiting.map fun a => { a with left := a.left - 1 } }) ∧
    t = { s with timestamp := t.timestamp, lines := t.lines, sessions := t.sessions, ports := t.ports }

/-- The requests that only read are answered OK with what they read at their happening, and refused with BAD_ARG,
NO_SUCH_ZONE or EMPTY where there is nothing to read; beside the answer they change nothing: CHAN_READ (R25), TIME_READ
(R34), ZONE_READ (R60), ZONE_LIST (R61), CAP_FETCH (R81), CLAIM_LIST (R115), OUT_READ (R134), IDENT (R176). -/
def Obligations.ReadingRequestsReport : Prop :=
  ∀ (h : Head) (b : Byte) (s : State),
    let answered (k : Kind) (r : Results) : Host.Outcome State Fault Refusal :=
      .next ((s.frameAccepted h.port).reply h k .ok r)
    (Admitted s h .chanRead →
      (8 ≤ b.toNat → exec (.chanRead h b) s = .next (s.refused h .chanRead .badArg)) ∧
      ∀ c : ChanId, b.toNat = c →
        exec (.chanRead h b) s =
          answered .chanRead (.channelRecord c s.channels[c] s.timestamp (s.holder (chanRes c)))) ∧
    (Admitted s h .timeRead → exec (.timeRead h) s = answered .timeRead (.times s.timestamp s.timestamp)) ∧
    (Admitted s h .zoneRead →
      ((∀ z : ZoneId, b.toNat = z → s.zones[z] = none) →
        exec (.zoneRead h b) s = .next (s.refused h .zoneRead .noSuchZone)) ∧
      ∀ z : ZoneId, b.toNat = z → ∀ x ∈ s.zones[z], exec (.zoneRead h b) s = answered .zoneRead (.zoneRecord z x)) ∧
    (Admitted s h .zoneList →
      exec (.zoneList h) s =
        answered .zoneList
          (.zoneList ((List.finRange 32).filterMap fun z => (s.zones[z]).map fun x => (z, x.owner, x.state)))) ∧
    (Admitted s h .capFetch →
      exec (.capFetch h) s =
        match (s.capture[h.port]).ring.head? with
        | some r => answered .capFetch (.captureRecord r)
        | none => .next (s.refused h .capFetch .empty)) ∧
    (Admitted s h .claimList → exec (.claimList h) s = answered .claimList (.claimList s.claims)) ∧
    (Admitted s h .outRead →
      (6 ≤ b.toNat → exec (.outRead h b) s = .next (s.refused h .outRead .badArg)) ∧
      ∀ k : LineId, b.toNat = k →
        exec (.outRead h b) s = answered .outRead (.outRecord (s.holder (lineRes k)) s.lines[k])) ∧
    (Admitted s h .ident → exec (.ident h) s = answered .ident (.ident h.port))

/-- NOP changes nothing at any block: its frame takes the receiver to HUNT, stops the frame-gap timer and starts a
RUNNING silence timer again, and its OK joins the transmit list, or is begun on an idle line, and is cached (R143, R147,
R159, R164, R173). That an idle line begins at once is the model's choice (log entry 5). -/
def Obligations.NopRestartsTheSilenceTimer : Prop :=
  ∀ (h : Head) (s : State), Admitted s h .nop →
    let x := s.ports[h.port]
    let y := s.sessions[h.port]
    let r : Response := ⟨h.tag, .ok, false, 0x0703, .none⟩
    let idle := x.sending = none ∧ x.waiting = []
    exec (.nop h) s =
      .next
        { s with
          ports := s.ports.set h.port
            { x with
              receiver := .hunt, gapTimer := none, cache := some r
              sending := if idle then some r else x.sending
              waiting := if idle then [] else x.waiting ++ [r] }
          sessions := s.sessions.set h.port
            { y with timer := match y.timer with
                | .running _ => .running y.fullTime
                | .suspended => .suspended
                | .notRunning => .notRunning } }

/-! ## The zone table -/

/-- The evaluation of a step, on a lawful channel whose new count is in place: an OUTSIDE zone of the channel enters when
the count is inside its window, read upward from low to high and through 0 where low is above high, and counts the entry;
an INSIDE zone exits when the count is outside the window by more than the hysteresis on every side; every other zone
stays. The zone table reaches no channel, claim, level, session, port or timestamp (R41 to R47). -/
def Obligations.StepMovesZones : Prop :=
  ∀ (c : ChanId) (s : State), (s.channels[c]).Lawful → OwnershipLawful s →
    let M := (s.channels[c]).modulus
    let p := (s.channels[c]).count
    let inside (y : Zone) : Prop :=
      if M = 0 ∨ y.low ≤ y.high then y.low ≤ p ∧ p ≤ y.high else y.low ≤ p ∨ p ≤ y.high
    let beyond (y : Zone) : Prop :=
      if M = 0 then p < y.low - y.hysteresis ∨ y.high + y.hysteresis < p
      else ¬ inside y ∧ y.hysteresis < (p - y.high) % (M : Int) ∧ y.hysteresis < (y.low - p) % (M : Int)
    let t := s.zoneStep c
    (∀ z : ZoneId, s.zones[z] = none → t.zones[z] = none) ∧
    (∀ z : ZoneId, ∀ y ∈ s.zones[z],
      (y.channel = c ∧ y.state = .outside ∧ inside y →
        t.zones[z] = some { y with state := .inside, entryCount := y.entryCount + 1 }) ∧
      (y.channel = c ∧ y.state = .inside ∧ beyond y → t.zones[z] = some { y with state := .outside }) ∧
      (¬ (y.channel = c ∧ (y.state = .outside ∧ inside y ∨ y.state = .inside ∧ beyond y)) → t.zones[z] = some y)) ∧
    t = { s with zones := t.zones, capture := t.capture, queues := t.queues, lines := t.lines }

/-- On every step, whatever zones change, each session's ring takes the captures of its zones' transitions and its queue,
while it is OPEN, their events, zone by zone in ascending zone id: each zone's ZONE_ENTER or ZONE_EXIT with the count and
turns after the step, then the CAPTURE_LOST and CAPTURE_READY of its capture, before the next zone's; every capture is of
the one instant of the step (R46, R48, R49, R78, R93). On a step at which no zone asks for a capture the rings stay. -/
def Obligations.StepActsInZoneOrder : Prop :=
  (∀ (c : ChanId) (s : State),
    (s.zoneStep c).queues = (s.posted fun p => (s.stepWork c p).2).queues ∧
    ∀ p : PortId, (s.zoneStep c).capture[p] = (s.stepWork c p).1) ∧
  (∀ (c : ChanId) (s : State),
    (∀ z : ZoneId, ∀ y ∈ s.zones[z], y.channel = c → y.onEnter.mask = 0 ∧ y.onExit.mask = 0) →
    let x := s.channels[c]
    let eventOf (p : PortId) (z : ZoneId) : Option Event :=
      match s.zones[z] with
      | none => none
      | some y =>
        if y.channel ≠ c ∨ y.owner ≠ p then none
        else
          match y.onStep x.modulus x.count with
          | some .entry => if y.onEnter.event then some (.zoneEnter z x.count x.turns) else none
          | some .exit => if y.onExit.event then some (.zoneExit z x.count x.turns) else none
          | none => none
    (s.zoneStep c).queues = (s.posted fun p => (List.finRange 32).filterMap (eventOf p)).queues ∧
    (s.zoneStep c).capture = s.capture)

/-- A zone alone in changing on a step takes the action set of its transition whole: its event, then its capture into the
owner's ring with the events of the ring, then its line: a trigger starts a pulse of the width on a PULSE line with none
running, starts it again under RESTART and is discarded under IGNORE; a FOLLOW line with follow yes is driven from its
following zones; DIRECT ignores both (R48, R49, R50, R78, R126, R127). -/
def Obligations.LoneTransitionTakesItsActions : Prop :=
  ∀ (c : ChanId) (z : ZoneId) (y : Zone) (m : Transition) (s : State), OwnershipLawful s →
    s.zones[z] = some y → y.channel = c → y.onStep (s.channels[c]).modulus (s.channels[c]).count = some m →
    (∀ z' : ZoneId, ∀ y' ∈ s.zones[z'], z' ≠ z → y'.channel = c →
      y'.onStep (s.channels[c]).modulus (s.channels[c]).count = none) →
    let x := s.channels[c]
    let a : ActionSet := match m with
      | .entry => y.onEnter
      | .exit => y.onExit
    let moved : Zone := match m with
      | .entry => { y with state := .inside, entryCount := y.entryCount + 1 }
      | .exit => { y with state := .outside }
    let event : List Event :=
      if a.event then [match m with
        | .entry => .zoneEnter z x.count x.turns
        | .exit => .zoneExit z x.count x.turns]
      else []
    let cause : CaptureCause := match m with
      | .entry => .zoneEnter z
      | .exit => .zoneExit z
    let ring : CaptureState × List Event :=
      if a.mask = 0 then (s.capture[y.owner], []) else (s.capture[y.owner]).meets (s.captureNow cause a.mask)
    let t := { s with zones := s.zones.set z (some moved) }
    let lineAfter (l : Link) : OutLine :=
      let o := s.lines[l.line]
      match o.mode with
      | .direct => o
      | .follow => if l.follow then o.driven (t.followDrive l.line) else o
      | .pulse =>
        if a.trigger then
          match o.timer, o.retrigger with
          | none, _ => ({ o with timer := some o.width.toNat } : OutLine).driven .active
          | some _, .restart => { o with timer := some o.width.toNat }
          | some _, .ignore => o
        else o
    s.zoneStep c =
      { (t.posted fun p => if p = y.owner then event ++ ring.2 else []) with
        capture := s.capture.set y.owner ring.1
        lines := match y.link with
          | none => s.lines
          | some l => s.lines.set l.line (lineAfter l) }

/-- ZONE_CREATE, by the order of its checks: a full table, a channel above 7, a channel OFF, parameters that check 4
refuses and a link to a line the requester does not hold are refused; else the lowest free slot takes the record with the
requester as owner, armed, entry count 0 and the state of a raw evaluation, and a linked FOLLOW line with follow yes is
driven anew. No event is posted (R36, R42, R43, R54, R55, R186). -/
def Obligations.ZoneCreateTakesTheLowestSlot : Prop :=
  ∀ (h : Head) (q : ZoneParams) (s : State), Admitted s h .zoneCreate →
    let i := Instr.zoneCreate h q
    ((∀ z : ZoneId, s.zones[z] ≠ none) → exec i s = .next (s.refused h .zoneCreate .full)) ∧
    ∀ z : ZoneId, s.zones[z] = none → (∀ z' : ZoneId, z' < z → s.zones[z'] ≠ none) →
      (8 ≤ q.channel.toNat → exec i s = .next (s.refused h .zoneCreate .badArg)) ∧
      ∀ c : ChanId, q.channel.toNat = c →
        let x := s.channels[c]
        let M : Int := x.modulus
        let low := q.low.toInt
        let high := q.high.toInt
        let hyst := q.hysteresis.toNat
        let W := (high - low) % M + 1
        let fits :=
          if x.modulus = 0 then low ≤ high
          else 0 ≤ low ∧ low < M ∧ 0 ≤ high ∧ high < M ∧ W < M ∧ 2 * (hyst : Int) < M - W
        let linked := q.linkLine ≠ 0xFF
        let known := q.enterEvent.toNat ≤ 1 ∧ q.enterTrigger.toNat ≤ 1 ∧ q.exitEvent.toNat ≤ 1 ∧
          q.exitTrigger.toNat ≤ 1 ∧ (linked → q.linkLine.toNat ≤ 5 ∧ q.linkFollow.toNat ≤ 1) ∧
          (¬ linked → q.enterTrigger = 0 ∧ q.exitTrigger = 0)
        let link : Option Link :=
          if linked then (lineOf q.linkLine).map fun k => ⟨k, q.linkFollow.toNat = 1⟩ else none
        let unheld := ∃ l ∈ link, s.holder (lineRes l.line) ≠ some h.port
        let y : Zone :=
          { owner := h.port, channel := c, low := low, high := high, hysteresis := hyst, armed := true
            state := if inWindow x.modulus low high x.count then .inside else .outside
            onEnter := ⟨q.enterEvent.toNat = 1, q.enterMask, q.enterTrigger.toNat = 1⟩
            onExit := ⟨q.exitEvent.toNat = 1, q.exitMask, q.exitTrigger.toNat = 1⟩
            link := link, entryCount := 0 }
        let t := { s.frameAccepted h.port with zones := s.zones.set z (some y) }
        exec i s =
          if x.mode = .off then .next (s.refused h .zoneCreate .channelOff)
          else if ¬ (fits ∧ known) then .next (s.refused h .zoneCreate .badArg)
          else if unheld then .next (s.refused h .zoneCreate .notHolder)
          else .next ((t.recomputeLink link).reply h .zoneCreate .ok (.zoneCreated z y.state))

/-- ZONE_ARM, ZONE_DISARM and ZONE_DELETE refuse an id with no zone and a zone of another owner. Then ARM raw-evaluates a
disarmed zone and reports the state, and reports an armed one unchanged; DISARM makes an armed zone IDLE; DELETE frees the
slot. No event is posted and no entry counted; a linked FOLLOW line with follow yes is driven anew where the zone changed
(R53, R57, R58, R59). -/
def Obligations.OwnersArmDisarmAndDelete : Prop :=
  ∀ (h : Head) (b : Byte) (s : State),
    let missing := ∀ z : ZoneId, b.toNat = z → s.zones[z] = none
    let put (z : ZoneId) (o : Option Zone) : State := { s.frameAccepted h.port with zones := s.zones.set z o }
    (Admitted s h .zoneArm →
      (missing → exec (.zoneArm h b) s = .next (s.refused h .zoneArm .noSuchZone)) ∧
      ∀ z : ZoneId, b.toNat = z → ∀ y ∈ s.zones[z],
        exec (.zoneArm h b) s =
          if y.owner ≠ h.port then .next (s.refused h .zoneArm .notOwner)
          else if y.armed = true then .next ((s.frameAccepted h.port).reply h .zoneArm .ok (.zoneState y.state))
          else
            let w : Zone := { y with armed := true, state := s.rawState y }
            .next (((put z (some w)).recomputeLink y.link).reply h .zoneArm .ok (.zoneState w.state))) ∧
    (Admitted s h .zoneDisarm →
      (missing → exec (.zoneDisarm h b) s = .next (s.refused h .zoneDisarm .noSuchZone)) ∧
      ∀ z : ZoneId, b.toNat = z → ∀ y ∈ s.zones[z],
        exec (.zoneDisarm h b) s =
          if y.owner ≠ h.port then .next (s.refused h .zoneDisarm .notOwner)
          else if y.armed = true then
            let w : Zone := { y with armed := false, state := .idle }
            .next (((put z (some w)).recomputeLink y.link).reply h .zoneDisarm .ok .none)
          else .next ((s.frameAccepted h.port).reply h .zoneDisarm .ok .none)) ∧
    (Admitted s h .zoneDelete →
      (missing → exec (.zoneDelete h b) s = .next (s.refused h .zoneDelete .noSuchZone)) ∧
      ∀ z : ZoneId, b.toNat = z → ∀ y ∈ s.zones[z],
        exec (.zoneDelete h b) s =
          if y.owner ≠ h.port then .next (s.refused h .zoneDelete .notOwner)
          else .next (((put z none).recomputeLink y.link).reply h .zoneDelete .ok .none))

/-! ## Captures -/

/-- CAPTURE refuses the mask 0; else the capture of this instant meets the requester's ring and is answered with its
number, or FULL by a full ring under KEEP_OLDEST, which then counts no loss (R71, R72, R73, R75). -/
def Obligations.CaptureStoresOrIsFull : Prop :=
  ∀ (h : Head) (mask : Byte) (s : State), Admitted s h .capture →
    let x := s.capture[h.port]
    let ring := x.meets (s.captureNow .request mask)
    exec (.capture h mask) s =
      if mask = 0 then .next (s.refused h .capture .badArg)
      else if 4 ≤ x.ring.length ∧ x.policy = .keepOldest then .next (s.refused h .capture .full)
      else
        let t := { s.frameAccepted h.port with capture := s.capture.set h.port ring.1 }
        .next (s.awaitsEnded ((t.posted fun p => if p = h.port then ring.2 else []).reply h .capture .ok
          (.captureSeq x.seqCounter)))

/-- An edge of a capture line turns its tracked level and is delivered to every session whose subscription to the line
accepts it: one capture of this instant with the subscription's mask meets that session's ring, whatever the other rings
do (R76, R77). -/
def Obligations.LineEdgeReachesSubscribers : Prop :=
  ∀ (n : CapId) (s : State),
    let rising := !s.capLevels[n]
    let taken (p : PortId) : Option CaptureRecord :=
      match (s.capture[p]).subs[n] with
      | none => none
      | some u =>
        if u.edge = .both ∨ (u.edge = .rising ∧ rising = true) ∨ (u.edge = .falling ∧ rising = false) then
          some (s.captureNow (.line n) u.mask)
        else none
    let t :=
      { s with
        capLevels := s.capLevels.set n rising
        capture := Vector.ofFn fun p =>
          match taken p with
          | some r => ((s.capture[p]).meets r).1
          | none => s.capture[p] }
    exec (.captureLineEdge n) s =
      .next (s.awaitsEnded (t.posted fun p =>
        match taken p with
        | some r => ((s.capture[p]).meets r).2
        | none => []))

/-- CAP_SUBSCRIBE refuses a line other than 0 and 1 and an edge other than 1 to 3, whatever the mask; else it replaces
the requester's subscription to that line, or removes it for the mask 0, and changes nothing else (R79). -/
def Obligations.CapSubscribeReplacesTheSubscription : Prop :=
  ∀ (h : Head) (line edge mask : Byte) (s : State), Admitted s h .capSubscribe →
    let i := Instr.capSubscribe h line edge mask
    let x := s.capture[h.port]
    (2 ≤ line.toNat ∨ edge.toNat = 0 ∨ 4 ≤ edge.toNat → exec i s = .next (s.refused h .capSubscribe .badArg)) ∧
    ∀ n : CapId, line.toNat = n → ∀ e ∈ edgeOf edge,
      exec i s =
        .next ({ s.frameAccepted h.port with
          capture := s.capture.set h.port
            { x with subs := x.subs.set n (if mask = 0 then none else some ⟨e, mask⟩) } }.reply h .capSubscribe .ok .none)

/-- CAP_POLICY sets the requester's policy and is answered OK; a value that names neither policy is refused with BAD_ARG
and changes nothing; the ring, the counters and the flag are untouched and nothing is posted (R80). -/
def Obligations.CapPolicySetsThePolicy : Prop :=
  ∀ (h : Head) (policy : Byte) (s : State), Admitted s h .capPolicy →
    exec (.capPolicy h policy) s =
      if 2 ≤ policy.toNat then .next (s.refused h .capPolicy .badArg)
      else
        .next ({ s.frameAccepted h.port with
          capture := s.capture.set h.port
            { s.capture[h.port] with policy := if policy = 0 then .keepOldest else .keepNewest } }.reply h .capPolicy .ok
              .none)

/-- CAP_ACK removes the oldest record when the number given is its own, and reports how many are left; it is answered
EMPTY by an empty ring and STALE with the oldest number otherwise, removing nothing (R82). -/
def Obligations.CapAckRemovesTheOldest : Prop :=
  ∀ (h : Head) (seq : Half) (s : State), Admitted s h .capAck →
    let x := s.capture[h.port]
    exec (.capAck h seq) s =
      match x.ring with
      | [] => .next (s.refused h .capAck .empty)
      | r :: rest =>
        if r.seq = seq then
          .next ({ s.frameAccepted h.port with capture := s.capture.set h.port { x with ring := rest } }.reply h .capAck
            .ok (.recordsLeft rest.length))
        else .next ((s.frameAccepted h.port).reply h .capAck .stale (.oldestSeq r.seq))

/-- CAP_STATUS reports the fill level, the next number, the policy, both subscriptions and the lost counter, then clears
the lost counter and the loss-reported flag; nothing else changes (R84). -/
def Obligations.CapStatusReportsAndClearsLosses : Prop :=
  ∀ (h : Head) (s : State), Admitted s h .capStatus →
    let x := s.capture[h.port]
    exec (.capStatus h) s =
      .next ({ s.frameAccepted h.port with
        capture := s.capture.set h.port { x with lost := 0, lossReported := false } }.reply h .capStatus .ok
          (.captureStatus x.ring.length x.seqCounter x.policy x.subs x.lost))

/-! ## Event queues -/

/-- EVT_READ refuses 0 and more than 8; else it removes the n oldest records, or all there are, and returns them; when it
removed any and losses were counted it stores one OVERFLOW record with their count and sets the count to 0; the depth is
that of the queue afterwards, and ATTN_n shows the condition of R102 (R97, R98, R99, R102). -/
def Obligations.EvtReadRemovesAndReportsOverflow : Prop :=
  ∀ (h : Head) (n : Byte) (s : State), Admitted s h .evtRead → (s.queues[h.port]).records.length ≤ 16 →
    let q := s.queues[h.port]
    let read := q.records.take n.toNat
    let left := q.records.drop n.toNat
    let lossy := read ≠ [] ∧ q.overflow ≠ 0
    let after := if lossy then left ++ [⟨.overflow q.overflow, s.timestamp⟩] else left
    exec (.evtRead h n) s =
      if n.toNat = 0 ∨ 9 ≤ n.toNat then .next (s.refused h .evtRead .badArg)
      else
        .next ({ s.frameAccepted h.port with
          queues := s.queues.set h.port
            { q with
              records := after
              overflow := if lossy then 0 else q.overflow
              attn := q.enabled && !after.isEmpty } }.reply h .evtRead .ok (.events read after.length))

/-- EVT_ATTN refuses every value but 0 and 1; else it sets the attention enable, makes ATTN_n show the condition of R102
and reports the enable and the depth; records, losses and everything else stay (R101, R102). -/
def Obligations.EvtAttnSetsTheEnable : Prop :=
  ∀ (h : Head) (onOff : Byte) (s : State), Admitted s h .evtAttn →
    let q := s.queues[h.port]
    let on : Bool := onOff = 1
    exec (.evtAttn h onOff) s =
      if 2 ≤ onOff.toNat then .next (s.refused h .evtAttn .badArg)
      else
        .next ({ s.frameAccepted h.port with
          queues := s.queues.set h.port { q with enabled := on, attn := on && !q.records.isEmpty } }.reply h .evtAttn .ok
            (.attention on q.records.length))

/-! ## Claims and output lines -/

/-- CLAIM refuses a resource above 13 and an entry that another session holds, naming the holder; an entry the requester
holds is reported with its stamp and nothing changes; a free entry is taken with the stamp of the request, and a line
among the resources is driven INACTIVE (R107, R109, R122). -/
def Obligations.ClaimTakesAFreeEntry : Prop :=
  ∀ (h : Head) (resource : Byte) (s : State), Admitted s h .claim →
    let i := Instr.claim h resource
    let t := s.frameAccepted h.port
    (14 ≤ resource.toNat → exec i s = .next (s.refused h .claim .badArg)) ∧
    ∀ r : ResId, resource.toNat = r →
      (∀ x ∈ s.claims[r], x.holder ≠ h.port → exec i s = .next (t.reply h .claim .held (.holder x.holder))) ∧
      (∀ x ∈ s.claims[r], x.holder = h.port → exec i s = .next (t.reply h .claim .ok (.claimed r x.stamp))) ∧
      (s.claims[r] = none →
        let claims := s.claims.set r (some ⟨h.port, s.timestamp⟩)
        let line (k : LineId) : OutLine :=
          { s.lines[k] with
            drive := .inactive
            pin := match (s.lines[k]).polarity with
              | .activeHigh => false
              | .activeLow => true }
        let lines := Vector.ofFn fun k => if lineRes k = r then line k else s.lines[k]
        exec i s = .next ({ t with claims := claims, lines := lines }.reply h .claim .ok (.claimed r s.timestamp)))

/-- RELEASE refuses a resource above 13, an entry the requester does not hold and a line that a zone links to; else the
entry is freed, a line returns to its defaults and its safe level, a channel is not touched, and CLAIM_FREED goes to every
other open session (R111, R112, R113, R118, R130). -/
def Obligations.ReleaseFreesTheEntry : Prop :=
  ∀ (h : Head) (resource : Byte) (s : State), Admitted s h .release →
    let i := Instr.release h resource
    (14 ≤ resource.toNat → exec i s = .next (s.refused h .release .badArg)) ∧
    ∀ r : ResId, resource.toNat = r →
      let linked := ∃ z : ZoneId, ∃ y ∈ s.zones[z], ∃ l ∈ y.link, lineRes l.line = r
      exec i s =
        if s.holder r ≠ some h.port then .next (s.refused h .release .notHolder)
        else if linked then .next (s.refused h .release .inUse)
        else
          let safeLine (k : LineId) : OutLine :=
            { polarity := .activeHigh, mode := .direct, direct := false, width := 1000, retrigger := .ignore,
              timer := none, drive := .safe, safe := (s.lines[k]).safe, pin := (s.lines[k]).safe }
          let t :=
            { s.frameAccepted h.port with
              claims := s.claims.set r none
              lines := Vector.ofFn fun k => if lineRes k = r then safeLine k else s.lines[k] }
          .next (s.awaitsEnded ((t.posted (toOthers h.port (.claimFreed r))).reply h .release .ok .none))

/-- OUT_MODE, by the order of its checks: a line above 5, a requester that does not hold the line, and a mode, polarity
or retrigger outside its codes or a width of 0 are refused; else the pulse timer is cancelled, the four fields are stored,
the drive is the direct level in DIRECT, that of the following zones in FOLLOW and INACTIVE in PULSE, the pin follows the
new polarity, and the drive is reported (R120, R124, R131, R132). -/
def Obligations.OutModeConfiguresTheLine : Prop :=
  ∀ (h : Head) (line mode polarity : Byte) (width : Half) (retrigger : Byte) (s : State), Admitted s h .outMode →
    let i := Instr.outMode h line mode polarity width retrigger
    (6 ≤ line.toNat → exec i s = .next (s.refused h .outMode .badArg)) ∧
    ∀ k : LineId, line.toNat = k →
      let o := s.lines[k]
      let known := mode.toNat ≤ 2 ∧ polarity.toNat ≤ 1 ∧ width ≠ 0 ∧ retrigger.toNat ≤ 1
      let following := ∃ z : ZoneId, ∃ y ∈ s.zones[z], y.link = some ⟨k, true⟩ ∧ y.armed = true ∧ y.state = .inside
      let drive : Drive :=
        if mode = 0 then (if o.direct then .active else .inactive)
        else if mode = 1 then (if following then .active else .inactive)
        else .inactive
      let o' : OutLine :=
        { o with
          mode := if mode = 0 then .direct else if mode = 1 then .follow else .pulse
          polarity := if polarity = 0 then .activeHigh else .activeLow
          width := width
          retrigger := if retrigger = 1 then .restart else .ignore
          timer := none
          drive := drive
          pin := if drive = .active then polarity = 0 else polarity ≠ 0 }
      exec i s =
        if s.holder (lineRes k) ≠ some h.port then .next (s.refused h .outMode .notHolder)
        else if ¬ known then .next (s.refused h .outMode .badArg)
        else
          .next ({ s.frameAccepted h.port with lines := s.lines.set k o' }.reply h .outMode .ok (.drive drive))

/-- OUT_SET, by the order of its checks: a line above 5, a requester that does not hold the line, a level other than 0
and 1, and a line in FOLLOW or PULSE are refused; else the direct level is stored and driven, and the pin follows the
polarity (R120, R133). -/
def Obligations.OutSetDrivesTheLevel : Prop :=
  ∀ (h : Head) (line level : Byte) (s : State), Admitted s h .outSet →
    let i := Instr.outSet h line level
    (6 ≤ line.toNat → exec i s = .next (s.refused h .outSet .badArg)) ∧
    ∀ k : LineId, line.toNat = k →
      let o := s.lines[k]
      let on : Bool := level = 1
      let o' : OutLine :=
        { o with
          direct := on
          drive := if on then .active else .inactive
          pin := match o.polarity with
            | .activeHigh => on
            | .activeLow => !on }
      exec i s =
        if s.holder (lineRes k) ≠ some h.port then .next (s.refused h .outSet .notHolder)
        else if 2 ≤ level.toNat then .next (s.refused h .outSet .badArg)
        else if o.mode ≠ .direct then .next (s.refused h .outSet .wrongMode)
        else .next ({ s.frameAccepted h.port with lines := s.lines.set k o' }.reply h .outSet .ok .none)

/-- A pulse timer that is due runs out: the timer stops, the drive becomes INACTIVE and the pin takes the inactive level;
nothing is posted and nothing else changes (R128). Where it is not due the command changes nothing, which is the model's
choice (log entry 3). -/
def Obligations.PulseTimerExpiryEndsThePulse : Prop :=
  ∀ (k : LineId) (s : State),
    let o := s.lines[k]
    exec (.pulseTimerExpiry k) s =
      if o.timer = some 0 then
        .next { s with
          lines := s.lines.set k
            { o with
              timer := none
              drive := .inactive
              pin := match o.polarity with
                | .activeHigh => false
                | .activeLow => true } }
      else .next s

/-! ## Sessions -/

/-- OPEN is answered ALREADY_OPEN with the epoch and the silence setting by an OPEN session, and BAD_ARG for the setting
0, changing nothing; else the session is OPEN with the next epoch, which skips 0, and the setting, its silence timer
started, its capture state and its queue afresh, and the answer carries the new epoch and the close cause, which stays
(R140, R141, R142). -/
def Obligations.OpenStartsASession : Prop :=
  ∀ (h : Head) (silence : Byte) (s : State), Admitted s h .openSession →
    let x := s.sessions[h.port]
    let epoch : Byte := BitVec.ofNat 8 (x.epoch.toNat % 255 + 1)
    exec (.openSession h silence) s =
      if x.isOpen = true then
        .next ((s.frameAccepted h.port).reply h .openSession .alreadyOpen (.alreadyOpen x.epoch x.silence))
      else if silence = 0 then .next (s.refused h .openSession .badArg)
      else
        .next ({ s.frameAccepted h.port with
          sessions := s.sessions.set h.port
            { isOpen := true, epoch := epoch, silence := some silence, timer := .running (silence.toNat * 10000)
              cause := x.cause }
          capture := s.capture.set h.port
            { ring := [], seqCounter := 0, policy := .keepOldest, lost := 0, lossReported := false, subs := #v[none, none] }
          queues := s.queues.set h.port { records := [], overflow := 0, enabled := true, attn := false } }.reply h
            .openSession .ok (.opened epoch x.cause))

/-- CLOSE and the running out of a due silence timer end an OPEN session by the teardown of R148, with the causes CLOSED
and TIMEOUT; the OK of CLOSE is sent after it and not cached (R145, R146, R148). Where the session is CLOSED, in which no
silence timer runs (R143), or the timer is not due, SILENCE_TIMEOUT changes nothing, which is the model's choice (log
entry 3). -/
def Obligations.CloseAndSilenceTearDown : Prop :=
  (∀ (h : Head) (s : State), Admitted s h .closeSession →
    let t := (s.frameAccepted h.port).tornDown h.port .closed
    exec (.closeSession h) s = .next (s.awaitsEnded (t.send h.port ⟨h.tag, .ok, false, 0x0702, .none⟩))) ∧
  (∀ (p : PortId) (s : State),
    exec (.silenceTimeout p) s =
      if (s.sessions[p]).isOpen = true ∧ (s.sessions[p]).timer = .running 0 then
        .next (s.awaitsEnded (s.tornDown p .timeout))
      else .next s)

/-- HUB_RESET is refused with HELD while another session holds a claim, naming the lowest resource so held; else every
other OPEN session is CLOSED with the cause HUB_RESET, its AWAIT answered SESSION_ENDED, and the whole hub is brought to
its reset values but for the epochs, the silence settings, the attention enables, the input levels, the safe levels, the
receivers, the requester's session and error counts and what waits to be sent; nothing is posted (R150, R151, R152). -/
def Obligations.HubResetResetsTheHub : Prop :=
  ∀ (h : Head) (s : State), Admitted s h .hubReset → HubLawful s →
    let t := s.frameAccepted h.port
    let heldBy (r : ResId) (q : PortId) := s.holder r = some q ∧ q ≠ h.port
    (∀ (r : ResId) (q : PortId), heldBy r q → (∀ r' : ResId, r' < r → ∀ q' : PortId, ¬ heldBy r' q') →
      exec (.hubReset h) s = .next (t.reply h .hubReset .held (.heldResource r q))) ∧
    ((∀ (r : ResId) (q : PortId), ¬ heldBy r q) →
      exec (.hubReset h) s =
        .next
          ({ t with
            timestamp := 0
            channels := Vector.ofFn fun c => Channel.atReset (s.channels[c]).levels
            zones := Vector.replicate 32 none
            capture := Vector.replicate 3 CaptureState.fresh
            queues := Vector.ofFn fun p => { s.queues[p] with records := [], overflow := 0, attn := false }
            claims := Vector.replicate 14 none
            lines := Vector.ofFn fun k => OutLine.defaults (s.lines[k]).safe
            sessions := Vector.ofFn fun p =>
              if p = h.port then t.sessions[p]
              else if (s.sessions[p]).isOpen then
                { s.sessions[p] with isOpen := false, timer := .notRunning, cause := .hubReset }
              else s.sessions[p]
            ports := Vector.ofFn fun p =>
              if p = h.port then t.ports[p]
              else
                let x : Port :=
                  { s.ports[p] with awaiting := none, cache := none, crcErrors := 0, framingErrors := 0, overruns := 0 }
                match (s.ports[p]).awaiting with
                | some a => x.send ⟨a.tag, .sessionEnded, false, 0x0801, .none⟩
                | none => x }.reply h .hubReset .ok .none))

/-- The assertion of LRST_n abandons an AWAIT without a response, tears an OPEN session down with the cause PORT_RESET,
leaves a CLOSED one as it was, discards the frame under assembly uncounted, the responses not yet begun and the error
counts, and lets a response being sent go on (R154, R157). Its release changes nothing but the line (R155). An assertion
of a line already held changes nothing, which is the model's choice (log entry 3). -/
def Obligations.PortResetEndsTheSession : Prop :=
  ∀ (p : PortId) (s : State),
    let t := if (s.sessions[p]).isOpen then s.tornDown p .portReset else s
    let x : Port :=
      { s.ports[p] with
        receiver := .hunt, gapTimer := none, awaiting := none, cache := none, crcErrors := 0, framingErrors := 0
        overruns := 0, waiting := [], lrst := true }
    exec (.lrstNAsserted p) s =
      (if (s.ports[p]).lrst then .next s else .next (s.awaitsEnded { t with ports := s.ports.set p x })) ∧
    exec (.lrstNReleased p) s = .next { s with ports := s.ports.set p { s.ports[p] with lrst := false } }

/-! ## Master ports -/

/-- AWAIT refuses the timeout 0; with records in the queue it is answered OK with the depth at once; over an empty queue
the port becomes EXECUTING with the tag and the timeout, the AWAIT timer is started and the silence timer SUSPENDED, and
nothing is answered (R144, R167, R168). -/
def Obligations.AwaitWaitsOverAnEmptyQueue : Prop :=
  ∀ (h : Head) (timeout : Byte) (s : State), Admitted s h .await →
    let t := s.frameAccepted h.port
    let q := s.queues[h.port]
    exec (.await h timeout) s =
      if timeout = 0 then .next (s.refused h .await .badArg)
      else if q.records ≠ [] then .next (t.reply h .await .ok (.depth q.records.length))
      else
        .next
          { t with
            ports := s.ports.set h.port
              { s.ports[h.port] with
                receiver := .hunt, gapTimer := none, awaiting := some ⟨h.tag, timeout, timeout.toNat * 10000⟩ }
            sessions := s.sessions.set h.port { s.sessions[h.port] with timer := .suspended } }

/-- A due AWAIT timer that runs out answers the AWAIT TIMEOUT (R170); the notice of a store to an EXECUTING port answers
it OK with the depth (R169). Each makes the port IDLE, starts the silence timer again and caches the answer. Where the
timer is not due, no AWAIT is in flight or the queue is empty, the command changes nothing, which is the model's choice
(log entries 3 and 6). -/
def Obligations.AwaitEndsOnTimerOrStore : Prop :=
  ∀ (p : PortId) (s : State),
    let q := s.queues[p]
    (exec (.awaitTimeout p) s =
      match (s.ports[p]).awaiting with
      | some a => if a.left = 0 then .next (s.awaitAnswered p a .timeout .none) else .next s
      | none => .next s) ∧
    (exec (.awaitEndedByStore p) s =
      match (s.ports[p]).awaiting with
      | some a => if q.records = [] then .next s else .next (s.awaitAnswered p a .ok (.depth q.records.length))
      | none => .next s)

/-- CANCEL is answered NOTHING_PENDING by an IDLE port; on an EXECUTING one the AWAIT is answered CANCELLED, uncached,
the port becomes IDLE, the silence timer starts again, and the CANCEL is answered OK behind it and cached (R171). -/
def Obligations.CancelEndsTheAwait : Prop :=
  ∀ (h : Head) (s : State), Admitted s h .cancel →
    let t := s.frameAccepted h.port
    exec (.cancel h) s =
      match (s.ports[h.port]).awaiting with
      | none => .next (s.refused h .cancel .nothingPending)
      | some a =>
        .next ({ t with
          ports := t.ports.set h.port
            (({ t.ports[h.port] with awaiting := none } : Port).send ⟨a.tag, .cancelled, false, 0x0801, .none⟩)
          sessions := t.sessions.set h.port
            { t.sessions[h.port] with timer := .running (s.sessions[h.port]).fullTime } }.reply h .cancel .ok .none)

/-- PORT_STATUS reports the session's state, epoch and close cause, the three error counts, the timestamp of its frame
and the tag held in the cache, OPEN or CLOSED, then sets the three counts to 0; nothing else changes (R33, R177). -/
def Obligations.PortStatusReportsAndClears : Prop :=
  ∀ (h : Head) (s : State), Admitted s h .portStatus →
    let x := s.ports[h.port]
    let y := s.sessions[h.port]
    let t := s.frameAccepted h.port
    exec (.portStatus h) s =
      .next ({ t with
        ports := t.ports.set h.port { t.ports[h.port] with crcErrors := 0, framingErrors := 0, overruns := 0 } }.reply h
          .portStatus .ok
          (.portStatus y.isOpen y.epoch y.cause x.crcErrors x.framingErrors x.overruns s.timestamp
            (x.cache.map fun (r : Response) => r.tag)))

/-- When a response has been sent whole its port begins the next of its transmit list; with none being sent the command
changes nothing, which is the model's choice (R164; log entry 3). -/
def Obligations.ResponsesLeaveInOrder : Prop :=
  ∀ (p : PortId) (s : State),
    let x := s.ports[p]
    exec (.responseSent p) s =
      match x.sending, x.waiting with
      | none, _ => .next s
      | some _, [] => .next { s with ports := s.ports.set p { x with sending := none } }
      | some _, r :: rest => .next { s with ports := s.ports.set p { x with sending := some r, waiting := rest } }

/-- The checks of an accepted frame, in their order, for every kind of request and for the unknown kinds: an overrun while
3 responses wait is counted and not answered; the tag of the cached response is answered by its replay; an EXECUTING port
answers BUSY, uncached, to all but CANCEL; an unknown kind is answered BAD_REQUEST, a wrong length BAD_LENGTH, a request
that a CLOSED session does not pass NO_SESSION with the cause, and another epoch WRONG_EPOCH. In each the frame has been
accepted and nothing else changes (R139, R140, R143, R159, R165, R166, R173, R174). -/
def Obligations.FramesAreCheckedInOrder : Prop :=
  ∀ (i : Instr) (h : Head) (s : State),
    (i.request?.map (·.2) = some h ∨ ∃ code, Kind.ofCode code = none ∧ i = .unknownRequestKind h code) →
    (s.ports[h.port]).lrst = false → 4 ≤ h.len → h.len ≤ 40 →
    let x := s.ports[h.port]
    let y := s.sessions[h.port]
    let t := s.frameAccepted h.port
    let kind : Option Kind := i.request?.map (·.1)
    let code : Half := match i with
      | .unknownRequestKind _ c => c
      | _ => (kind.map Kind.code).getD 0
    (3 ≤ x.waiting.length →
      exec i s = .next { t with ports := t.ports.set h.port { t.ports[h.port] with overruns := oneMore x.overruns } }) ∧
    (x.waiting.length ≤ 2 → ∀ r ∈ x.cache, r.tag = h.tag →
      exec i s = .next (t.send h.port { r with replay := true })) ∧
    (x.waiting.length ≤ 2 → (∀ r ∈ x.cache, r.tag ≠ h.tag) →
      (x.awaiting ≠ none ∧ kind ≠ some .cancel → exec i s = .next (t.send h.port ⟨h.tag, .busy, false, code, .none⟩)) ∧
      (x.awaiting = none ∨ kind = some .cancel →
        (kind = none → exec i s = .next (t.answer h.port h.tag code .badRequest .none)) ∧
        ∀ k ∈ kind,
          (h.len ≠ k.bodyLen → exec i s = .next (s.refused h k .badLength)) ∧
          (h.len = k.bodyLen → y.isOpen = false → k ≠ .openSession → k ≠ .ident → k ≠ .portStatus →
            exec i s = .next (t.reply h k .noSession (.closeCause y.cause))) ∧
          (h.len = k.bodyLen → y.isOpen = true → k ≠ .openSession → h.epoch ≠ y.epoch →
            exec i s = .next (s.refused h k .wrongEpoch))))

/-! ## The receiver -/

/-- A byte taken, by the state of the receiver: in HUNT 0xA5 begins a frame and any other byte is discarded; a length of
4 to 40 begins the body and any other is a framing error; body and first CRC byte join the frame; each starts the gap
timer again. The second CRC byte completes the frame: with the CRC of R180 the request that its body spells is taken, with
another the CRC failure is. While LRST_n is held every byte is ignored (R155, R158, R159, R160). That the command for a
byte also takes the frame it completes is the model's choice (log entry 4). -/
def Obligations.ReceiverTakesBytes : Prop :=
  ∀ (p : PortId) (b : Byte) (s : State), (s.ports[p]).receiver.lawful = true →
    let x := s.ports[p]
    let go (r : Receiver) : Host.Outcome State Fault Refusal :=
      .next { s with ports := s.ports.set p { x with receiver := r, gapTimer := some 5000 } }
    exec (.frameByteTaken p b) s =
      if x.lrst = true then .next s
      else
        match x.receiver with
        | .hunt => if b = 0xA5 then go .length else .next s
        | .length =>
          if 4 ≤ b.toNat ∧ b.toNat ≤ 40 then go (.body b.toNat [])
          else .next { s with ports := s.ports.set p { x.discarded with framingErrors := oneMore x.framingErrors } }
        | .body n taken =>
          if taken.length + 1 = n then go (.check (taken ++ [b]) none) else go (.body n (taken ++ [b]))
        | .check body none => go (.check body (some b))
        | .check body (some hi) =>
          if frameCrc body = bytesHalf hi b then exec (decodeRequest p body) s
          else exec (.crcFailure p body (bytesHalf hi b)) s

/-- A length byte outside 4 to 40 and the running out of a due gap timer are framing errors: counted up to 65,535, the
frame under assembly discarded, the receiver in HUNT with its gap timer stopped, nothing answered and the silence timer
not restarted (R158, R161, R162). While LRST_n is held, with a length of 4 to 40, or with the timer not due, the command
changes nothing, which is the model's choice (log entries 3 and 4). -/
def Obligations.FramingErrorsDiscardTheFrame : Prop :=
  ∀ (p : PortId) (n : Byte) (s : State),
    let x := s.ports[p]
    let counted : State :=
      { s with ports := s.ports.set p { x.discarded with framingErrors := oneMore x.framingErrors } }
    (exec (.framingError p n) s =
      if x.lrst = false ∧ (n.toNat ≤ 3 ∨ 41 ≤ n.toNat) then .next counted else .next s) ∧
    (exec (.frameGapTimeout p) s = if x.gapTimer = some 0 then .next counted else .next s)

/-- A CRC failure is counted, and the bytes after its sync byte are taken again from HUNT, in their order and within the
happening, exactly as bytes from the line are: the state is the one that taking them one by one leaves (R158, R160). That
the AWAITs which such bytes end are answered at the end of the whole happening is the model's choice (log entry 7). -/
def Obligations.CrcFailureTakesItsBytesAgain : Prop :=
  ∀ (p : PortId) (body : List Byte) (crc : Half) (s : State),
    (s.ports[p]).lrst = false → 4 ≤ body.length → body.length ≤ 40 → frameCrc body ≠ crc →
    let x := s.ports[p]
    let counted : State := { s with ports := s.ports.set p { x.discarded with crcErrors := oneMore x.crcErrors } }
    exec (.crcFailure p body crc) s =
      .next (s.awaitsEnded ((afterSync body crc).foldl (fun t b => t.takeByte p b) counted))

/-! ## What the part sends -/

/-- What the part sends keeps every field (R164, R179, R182 to R185). An event record takes 13 bytes, its presence byte
tells in bits 0 to 2 which of subject, argument and second argument it carries and is 0 above, and two records whose
numbers lie in their ranges have the same bytes only when they are the same record. A response's frame is the sync byte,
its body's length, its body and the body's CRC; its body begins with the tag, the status, the replay flag and the kind,
and has the length that R182 gives to its results; two responses, each with the results of its status and kind and with
numbers in their ranges, have the same body, or the same frame, only when they are the same response, but for the
increments left of a pulse timer, of which only whether it runs is sent. -/
def Obligations.SentBytesKeepEveryField : Prop :=
  (∀ r : EventRecord, ∃ rest : List Byte,
    r.bytes = [r.event.kindByte, r.event.presence, r.event.subject.getD 0] ++ rest ∧ rest.length = 10 ∧
    r.event.presence.getLsbD 0 = r.event.subject.isSome ∧ r.event.presence.getLsbD 1 = r.event.argument.isSome ∧
    r.event.presence.getLsbD 2 = r.event.second.isSome ∧ r.event.presence.toNat < 8) ∧
  (∀ r q : EventRecord, r.event.inRange = true → q.event.inRange = true → r.bytes = q.bytes → r = q) ∧
  (∀ r : Response,
    r.body.take 5 = [r.tag, r.status.byte, if r.replay then 1 else 0] ++ halfBytes r.kind ∧
    r.body.length = 5 + r.results.size) ∧
  (∀ (s : State) (p : PortId),
    s.txFrame p = (s.ports[p]).sending.map fun r =>
      [0xA5, BitVec.ofNat 8 r.body.length] ++ r.body ++ halfBytes (frameCrc r.body)) ∧
  (∀ r q : Response, r.laidOut = true → q.laidOut = true → r.results.inRange = true → q.results.inRange = true →
    r.body = q.body ∨ r.frame = q.frame →
    ({ r with results := r.results.asSent } : Response) = { q with results := q.results.asSent })

/-! ## Whole frames, and what one master cannot do to another -/

/-- The body of every request command, with every operand at every value, decodes to that command, and the body of every
request of the length its kind fixes is the body of the command it decodes to: no bit of a field is dropped, added or
moved (R163, R179, R181). -/
def Obligations.RequestBodiesRoundTrip : Prop :=
  (∀ (i : Instr) (k : Kind) (h : Head) (body : List Byte), i.request? = some (k, h) → h.len = k.bodyLen →
    encodeRequest i = some body → body.length = k.bodyLen ∧ decodeRequest h.port body = i) ∧
  (∀ (p : PortId) (body : List Byte) (k : Kind), Kind.ofCode (bytesHalf (body.getD 2 0) (body.getD 3 0)) = some k →
    body.length = k.bodyLen →
    (decodeRequest p body).request?.map (·.1) = some k ∧ encodeRequest (decodeRequest p body) = some body)

/-- The frame of a request, taken byte by byte by a receiver in HUNT, does what the request's command does: sync byte,
length, body and CRC come together to one execution (R158, R159, R163, R166, R179, R180). That a request's command carries
its whole frame is the model's choice (log entry 4). -/
def Obligations.FrameBytesRunTheRequest : Prop :=
  ∀ (i : Instr) (k : Kind) (h : Head) (body : List Byte) (s : State),
    i.request? = some (k, h) → h.len = k.bodyLen → encodeRequest i = some body →
    (s.ports[h.port]).lrst = false → (s.ports[h.port]).receiver = .hunt →
    takeBytes h.port (frameBytes body) s = exec i s

/-- What one master's request cannot do to another master: with every request but HUB_RESET, whatever its operands and
however it is answered, the sessions of the other masters stay but for the silence timer (which an AWAIT of theirs that
ends starts again), their capture states and claims stay, their zones stay but for the state (which a discontinuity
raw-evaluates), and their lines stay, but for the drive and the pin of a line in FOLLOW (0.1, R38, R51, R108, R121, R144,
R169). -/
def Obligations.RequestsLeaveOtherMastersAlone : Prop :=
  ∀ (i : Instr) (k : Kind) (h : Head) (s t : State),
    i.request? = some (k, h) → k ≠ .hubReset → OwnershipLawful s → exec i s = .next t →
    (∀ q : PortId, q ≠ h.port →
      (∃ w, t.sessions[q] = { s.sessions[q] with timer := w }) ∧ t.capture[q] = s.capture[q]) ∧
    (∀ r : ResId, ∀ x ∈ s.claims[r], x.holder ≠ h.port → t.claims[r] = some x) ∧
    (∀ z : ZoneId, ∀ y ∈ s.zones[z], y.owner ≠ h.port → ∃ w, t.zones[z] = some { y with state := w }) ∧
    (∀ k : LineId, ∀ x ∈ s.claims[lineRes k], x.holder ≠ h.port →
      (∃ d n, t.lines[k] = { s.lines[k] with drive := d, pin := n }) ∧
      ((s.lines[k]).mode ≠ .follow → t.lines[k] = s.lines[k]))
end

