-- ==== Sys2Proof/Laws/Bytes.lean ====
section
/-! SUPPORT. A field and its bytes determine each other (R179), and two kinds never share a code (R181). -/

namespace Sys2Proof

@[simp] theorem bytesHalf_bytes (x : Half) : bytesHalf (x.extractLsb' 8 8) (x.extractLsb' 0 8) = x := by
  unfold bytesHalf
  ext i hi
  simp only [BitVec.getElem_append, BitVec.getElem_extractLsb']
  split
  · simp [BitVec.getElem_eq_testBit_toNat, BitVec.getLsbD]
  · rename_i h
    simp [show 8 + (i - 8) = i by omega, BitVec.getElem_eq_testBit_toNat, BitVec.getLsbD]

@[simp] theorem bytesWord_bytes (x : Word) :
    bytesWord (x.extractLsb' 24 8) (x.extractLsb' 16 8) (x.extractLsb' 8 8) (x.extractLsb' 0 8) = x := by
  unfold bytesWord
  ext i hi
  simp only [BitVec.getElem_append, BitVec.getElem_extractLsb']
  split
  · simp [BitVec.getElem_eq_testBit_toNat, BitVec.getLsbD]
  · rename_i h1
    split
    · rename_i h2
      simp [show 8 + (i - 8) = i by omega, BitVec.getElem_eq_testBit_toNat, BitVec.getLsbD]
    · rename_i h2
      split
      · simp [show 16 + (i - 8 - 8) = i by omega, BitVec.getElem_eq_testBit_toNat, BitVec.getLsbD]
      · simp [show 24 + (i - 8 - 8 - 8) = i by omega, BitVec.getElem_eq_testBit_toNat, BitVec.getLsbD]

@[simp] theorem halfBytes_bytesHalf (hi lo : Byte) : halfBytes (bytesHalf hi lo) = [hi, lo] := by
  have h1 : (bytesHalf hi lo).extractLsb' 8 8 = hi := by
    apply BitVec.eq_of_getLsbD_eq
    intro i h
    rw [BitVec.getLsbD_extractLsb', bytesHalf, BitVec.getLsbD_append]
    simp [h]
  have h2 : (bytesHalf hi lo).extractLsb' 0 8 = lo := by
    apply BitVec.eq_of_getLsbD_eq
    intro i h
    rw [BitVec.getLsbD_extractLsb', bytesHalf, BitVec.getLsbD_append]
    simp [h]
  rw [halfBytes, h1, h2]

/-- The code of a kind names that kind. -/
@[simp] theorem Kind.ofCode_code (k : Kind) : Kind.ofCode k.code = some k := by cases k <;> rfl

/-- Only its code names a kind. -/
theorem Kind.code_of_ofCode {code : Half} {k : Kind} (h : Kind.ofCode code = some k) : k.code = code := by
  simpa using List.find?_some h

end Sys2Proof
end

