-- ==== Sys2Proof/Laws/State.lean ====
section
/-! SUPPORT. What each setter of State does to each field, one lemma per field. -/

namespace Sys2Proof.Machine

/-! ## setTimestamp -/

@[simp] theorem State.setTimestamp_timestamp (s : State) (t : Word) : (s.setTimestamp t).timestamp = t := rfl
@[simp] theorem State.setTimestamp_channels (s : State) (t : Word) : (s.setTimestamp t).channels = s.channels := rfl
@[simp] theorem State.setTimestamp_zones (s : State) (t : Word) : (s.setTimestamp t).zones = s.zones := rfl
@[simp] theorem State.setTimestamp_capture (s : State) (t : Word) : (s.setTimestamp t).capture = s.capture := rfl
@[simp] theorem State.setTimestamp_capLevels (s : State) (t : Word) : (s.setTimestamp t).capLevels = s.capLevels := rfl
@[simp] theorem State.setTimestamp_queues (s : State) (t : Word) : (s.setTimestamp t).queues = s.queues := rfl
@[simp] theorem State.setTimestamp_claims (s : State) (t : Word) : (s.setTimestamp t).claims = s.claims := rfl
@[simp] theorem State.setTimestamp_lines (s : State) (t : Word) : (s.setTimestamp t).lines = s.lines := rfl
@[simp] theorem State.setTimestamp_sessions (s : State) (t : Word) : (s.setTimestamp t).sessions = s.sessions := rfl
@[simp] theorem State.setTimestamp_ports (s : State) (t : Word) : (s.setTimestamp t).ports = s.ports := rfl
@[simp] theorem State.setTimestamp_pending (s : State) (t : Word) : (s.setTimestamp t).pending = s.pending := rfl

/-! ## setChannel -/

@[simp] theorem State.setChannel_timestamp (s : State) (c : ChanId) (x : Channel) :
    (s.setChannel c x).timestamp = s.timestamp := rfl
@[simp] theorem State.setChannel_channels (s : State) (c : ChanId) (x : Channel) :
    (s.setChannel c x).channels = s.channels.set c x := rfl
@[simp] theorem State.setChannel_zones (s : State) (c : ChanId) (x : Channel) :
    (s.setChannel c x).zones = s.zones := rfl
@[simp] theorem State.setChannel_capture (s : State) (c : ChanId) (x : Channel) :
    (s.setChannel c x).capture = s.capture := rfl
@[simp] theorem State.setChannel_capLevels (s : State) (c : ChanId) (x : Channel) :
    (s.setChannel c x).capLevels = s.capLevels := rfl
@[simp] theorem State.setChannel_queues (s : State) (c : ChanId) (x : Channel) :
    (s.setChannel c x).queues = s.queues := rfl
@[simp] theorem State.setChannel_claims (s : State) (c : ChanId) (x : Channel) :
    (s.setChannel c x).claims = s.claims := rfl
@[simp] theorem State.setChannel_lines (s : State) (c : ChanId) (x : Channel) :
    (s.setChannel c x).lines = s.lines := rfl
@[simp] theorem State.setChannel_sessions (s : State) (c : ChanId) (x : Channel) :
    (s.setChannel c x).sessions = s.sessions := rfl
@[simp] theorem State.setChannel_ports (s : State) (c : ChanId) (x : Channel) :
    (s.setChannel c x).ports = s.ports := rfl
@[simp] theorem State.setChannel_pending (s : State) (c : ChanId) (x : Channel) :
    (s.setChannel c x).pending = s.pending := rfl

/-! ## setZones -/

@[simp] theorem State.setZones_timestamp (s : State) (z : Vector (Option Zone) 32) :
    (s.setZones z).timestamp = s.timestamp := rfl
@[simp] theorem State.setZones_channels (s : State) (z : Vector (Option Zone) 32) :
    (s.setZones z).channels = s.channels := rfl
@[simp] theorem State.setZones_zones (s : State) (z : Vector (Option Zone) 32) : (s.setZones z).zones = z := rfl
@[simp] theorem State.setZones_capture (s : State) (z : Vector (Option Zone) 32) :
    (s.setZones z).capture = s.capture := rfl
@[simp] theorem State.setZones_capLevels (s : State) (z : Vector (Option Zone) 32) :
    (s.setZones z).capLevels = s.capLevels := rfl
@[simp] theorem State.setZones_queues (s : State) (z : Vector (Option Zone) 32) :
    (s.setZones z).queues = s.queues := rfl
@[simp] theorem State.setZones_claims (s : State) (z : Vector (Option Zone) 32) :
    (s.setZones z).claims = s.claims := rfl
@[simp] theorem State.setZones_lines (s : State) (z : Vector (Option Zone) 32) : (s.setZones z).lines = s.lines := rfl
@[simp] theorem State.setZones_sessions (s : State) (z : Vector (Option Zone) 32) :
    (s.setZones z).sessions = s.sessions := rfl
@[simp] theorem State.setZones_ports (s : State) (z : Vector (Option Zone) 32) : (s.setZones z).ports = s.ports := rfl
@[simp] theorem State.setZones_pending (s : State) (z : Vector (Option Zone) 32) :
    (s.setZones z).pending = s.pending := rfl

/-! ## setZone -/

@[simp] theorem State.setZone_timestamp (s : State) (z : ZoneId) (x : Option Zone) :
    (s.setZone z x).timestamp = s.timestamp := rfl
@[simp] theorem State.setZone_channels (s : State) (z : ZoneId) (x : Option Zone) :
    (s.setZone z x).channels = s.channels := rfl
@[simp] theorem State.setZone_zones (s : State) (z : ZoneId) (x : Option Zone) :
    (s.setZone z x).zones = s.zones.set z x := rfl
@[simp] theorem State.setZone_capture (s : State) (z : ZoneId) (x : Option Zone) :
    (s.setZone z x).capture = s.capture := rfl
@[simp] theorem State.setZone_capLevels (s : State) (z : ZoneId) (x : Option Zone) :
    (s.setZone z x).capLevels = s.capLevels := rfl
@[simp] theorem State.setZone_queues (s : State) (z : ZoneId) (x : Option Zone) :
    (s.setZone z x).queues = s.queues := rfl
@[simp] theorem State.setZone_claims (s : State) (z : ZoneId) (x : Option Zone) :
    (s.setZone z x).claims = s.claims := rfl
@[simp] theorem State.setZone_lines (s : State) (z : ZoneId) (x : Option Zone) : (s.setZone z x).lines = s.lines := rfl
@[simp] theorem State.setZone_sessions (s : State) (z : ZoneId) (x : Option Zone) :
    (s.setZone z x).sessions = s.sessions := rfl
@[simp] theorem State.setZone_ports (s : State) (z : ZoneId) (x : Option Zone) : (s.setZone z x).ports = s.ports := rfl
@[simp] theorem State.setZone_pending (s : State) (z : ZoneId) (x : Option Zone) :
    (s.setZone z x).pending = s.pending := rfl

/-! ## setCapture -/

@[simp] theorem State.setCapture_timestamp (s : State) (p : PortId) (x : CaptureState) :
    (s.setCapture p x).timestamp = s.timestamp := rfl
@[simp] theorem State.setCapture_channels (s : State) (p : PortId) (x : CaptureState) :
    (s.setCapture p x).channels = s.channels := rfl
@[simp] theorem State.setCapture_zones (s : State) (p : PortId) (x : CaptureState) :
    (s.setCapture p x).zones = s.zones := rfl
@[simp] theorem State.setCapture_capture (s : State) (p : PortId) (x : CaptureState) :
    (s.setCapture p x).capture = s.capture.set p x := rfl
@[simp] theorem State.setCapture_capLevels (s : State) (p : PortId) (x : CaptureState) :
    (s.setCapture p x).capLevels = s.capLevels := rfl
@[simp] theorem State.setCapture_queues (s : State) (p : PortId) (x : CaptureState) :
    (s.setCapture p x).queues = s.queues := rfl
@[simp] theorem State.setCapture_claims (s : State) (p : PortId) (x : CaptureState) :
    (s.setCapture p x).claims = s.claims := rfl
@[simp] theorem State.setCapture_lines (s : State) (p : PortId) (x : CaptureState) :
    (s.setCapture p x).lines = s.lines := rfl
@[simp] theorem State.setCapture_sessions (s : State) (p : PortId) (x : CaptureState) :
    (s.setCapture p x).sessions = s.sessions := rfl
@[simp] theorem State.setCapture_ports (s : State) (p : PortId) (x : CaptureState) :
    (s.setCapture p x).ports = s.ports := rfl
@[simp] theorem State.setCapture_pending (s : State) (p : PortId) (x : CaptureState) :
    (s.setCapture p x).pending = s.pending := rfl

/-! ## setCapLevel -/

@[simp] theorem State.setCapLevel_timestamp (s : State) (n : CapId) (x : Bool) :
    (s.setCapLevel n x).timestamp = s.timestamp := rfl
@[simp] theorem State.setCapLevel_channels (s : State) (n : CapId) (x : Bool) :
    (s.setCapLevel n x).channels = s.channels := rfl
@[simp] theorem State.setCapLevel_zones (s : State) (n : CapId) (x : Bool) : (s.setCapLevel n x).zones = s.zones := rfl
@[simp] theorem State.setCapLevel_capture (s : State) (n : CapId) (x : Bool) :
    (s.setCapLevel n x).capture = s.capture := rfl
@[simp] theorem State.setCapLevel_capLevels (s : State) (n : CapId) (x : Bool) :
    (s.setCapLevel n x).capLevels = s.capLevels.set n x := rfl
@[simp] theorem State.setCapLevel_queues (s : State) (n : CapId) (x : Bool) :
    (s.setCapLevel n x).queues = s.queues := rfl
@[simp] theorem State.setCapLevel_claims (s : State) (n : CapId) (x : Bool) :
    (s.setCapLevel n x).claims = s.claims := rfl
@[simp] theorem State.setCapLevel_lines (s : State) (n : CapId) (x : Bool) : (s.setCapLevel n x).lines = s.lines := rfl
@[simp] theorem State.setCapLevel_sessions (s : State) (n : CapId) (x : Bool) :
    (s.setCapLevel n x).sessions = s.sessions := rfl
@[simp] theorem State.setCapLevel_ports (s : State) (n : CapId) (x : Bool) : (s.setCapLevel n x).ports = s.ports := rfl
@[simp] theorem State.setCapLevel_pending (s : State) (n : CapId) (x : Bool) :
    (s.setCapLevel n x).pending = s.pending := rfl

/-! ## setQueue -/

@[simp] theorem State.setQueue_timestamp (s : State) (p : PortId) (x : EventQueue) :
    (s.setQueue p x).timestamp = s.timestamp := rfl
@[simp] theorem State.setQueue_channels (s : State) (p : PortId) (x : EventQueue) :
    (s.setQueue p x).channels = s.channels := rfl
@[simp] theorem State.setQueue_zones (s : State) (p : PortId) (x : EventQueue) :
    (s.setQueue p x).zones = s.zones := rfl
@[simp] theorem State.setQueue_capture (s : State) (p : PortId) (x : EventQueue) :
    (s.setQueue p x).capture = s.capture := rfl
@[simp] theorem State.setQueue_capLevels (s : State) (p : PortId) (x : EventQueue) :
    (s.setQueue p x).capLevels = s.capLevels := rfl
@[simp] theorem State.setQueue_queues (s : State) (p : PortId) (x : EventQueue) :
    (s.setQueue p x).queues = s.queues.set p x := rfl
@[simp] theorem State.setQueue_claims (s : State) (p : PortId) (x : EventQueue) :
    (s.setQueue p x).claims = s.claims := rfl
@[simp] theorem State.setQueue_lines (s : State) (p : PortId) (x : EventQueue) :
    (s.setQueue p x).lines = s.lines := rfl
@[simp] theorem State.setQueue_sessions (s : State) (p : PortId) (x : EventQueue) :
    (s.setQueue p x).sessions = s.sessions := rfl
@[simp] theorem State.setQueue_ports (s : State) (p : PortId) (x : EventQueue) :
    (s.setQueue p x).ports = s.ports := rfl
@[simp] theorem State.setQueue_pending (s : State) (p : PortId) (x : EventQueue) :
    (s.setQueue p x).pending = s.pending := rfl

/-! ## setClaim -/

@[simp] theorem State.setClaim_timestamp (s : State) (r : ResId) (x : Option Claim) :
    (s.setClaim r x).timestamp = s.timestamp := rfl
@[simp] theorem State.setClaim_channels (s : State) (r : ResId) (x : Option Claim) :
    (s.setClaim r x).channels = s.channels := rfl
@[simp] theorem State.setClaim_zones (s : State) (r : ResId) (x : Option Claim) :
    (s.setClaim r x).zones = s.zones := rfl
@[simp] theorem State.setClaim_capture (s : State) (r : ResId) (x : Option Claim) :
    (s.setClaim r x).capture = s.capture := rfl
@[simp] theorem State.setClaim_capLevels (s : State) (r : ResId) (x : Option Claim) :
    (s.setClaim r x).capLevels = s.capLevels := rfl
@[simp] theorem State.setClaim_queues (s : State) (r : ResId) (x : Option Claim) :
    (s.setClaim r x).queues = s.queues := rfl
@[simp] theorem State.setClaim_claims (s : State) (r : ResId) (x : Option Claim) :
    (s.setClaim r x).claims = s.claims.set r x := rfl
@[simp] theorem State.setClaim_lines (s : State) (r : ResId) (x : Option Claim) :
    (s.setClaim r x).lines = s.lines := rfl
@[simp] theorem State.setClaim_sessions (s : State) (r : ResId) (x : Option Claim) :
    (s.setClaim r x).sessions = s.sessions := rfl
@[simp] theorem State.setClaim_ports (s : State) (r : ResId) (x : Option Claim) :
    (s.setClaim r x).ports = s.ports := rfl
@[simp] theorem State.setClaim_pending (s : State) (r : ResId) (x : Option Claim) :
    (s.setClaim r x).pending = s.pending := rfl

/-! ## setLine -/

@[simp] theorem State.setLine_timestamp (s : State) (k : LineId) (x : OutLine) :
    (s.setLine k x).timestamp = s.timestamp := rfl
@[simp] theorem State.setLine_channels (s : State) (k : LineId) (x : OutLine) :
    (s.setLine k x).channels = s.channels := rfl
@[simp] theorem State.setLine_zones (s : State) (k : LineId) (x : OutLine) : (s.setLine k x).zones = s.zones := rfl
@[simp] theorem State.setLine_capture (s : State) (k : LineId) (x : OutLine) :
    (s.setLine k x).capture = s.capture := rfl
@[simp] theorem State.setLine_capLevels (s : State) (k : LineId) (x : OutLine) :
    (s.setLine k x).capLevels = s.capLevels := rfl
@[simp] theorem State.setLine_queues (s : State) (k : LineId) (x : OutLine) : (s.setLine k x).queues = s.queues := rfl
@[simp] theorem State.setLine_claims (s : State) (k : LineId) (x : OutLine) : (s.setLine k x).claims = s.claims := rfl
@[simp] theorem State.setLine_lines (s : State) (k : LineId) (x : OutLine) :
    (s.setLine k x).lines = s.lines.set k x := rfl
@[simp] theorem State.setLine_sessions (s : State) (k : LineId) (x : OutLine) :
    (s.setLine k x).sessions = s.sessions := rfl
@[simp] theorem State.setLine_ports (s : State) (k : LineId) (x : OutLine) : (s.setLine k x).ports = s.ports := rfl
@[simp] theorem State.setLine_pending (s : State) (k : LineId) (x : OutLine) :
    (s.setLine k x).pending = s.pending := rfl

/-! ## setSession -/

@[simp] theorem State.setSession_timestamp (s : State) (p : PortId) (x : Session) :
    (s.setSession p x).timestamp = s.timestamp := rfl
@[simp] theorem State.setSession_channels (s : State) (p : PortId) (x : Session) :
    (s.setSession p x).channels = s.channels := rfl
@[simp] theorem State.setSession_zones (s : State) (p : PortId) (x : Session) :
    (s.setSession p x).zones = s.zones := rfl
@[simp] theorem State.setSession_capture (s : State) (p : PortId) (x : Session) :
    (s.setSession p x).capture = s.capture := rfl
@[simp] theorem State.setSession_capLevels (s : State) (p : PortId) (x : Session) :
    (s.setSession p x).capLevels = s.capLevels := rfl
@[simp] theorem State.setSession_queues (s : State) (p : PortId) (x : Session) :
    (s.setSession p x).queues = s.queues := rfl
@[simp] theorem State.setSession_claims (s : State) (p : PortId) (x : Session) :
    (s.setSession p x).claims = s.claims := rfl
@[simp] theorem State.setSession_lines (s : State) (p : PortId) (x : Session) :
    (s.setSession p x).lines = s.lines := rfl
@[simp] theorem State.setSession_sessions (s : State) (p : PortId) (x : Session) :
    (s.setSession p x).sessions = s.sessions.set p x := rfl
@[simp] theorem State.setSession_ports (s : State) (p : PortId) (x : Session) :
    (s.setSession p x).ports = s.ports := rfl
@[simp] theorem State.setSession_pending (s : State) (p : PortId) (x : Session) :
    (s.setSession p x).pending = s.pending := rfl

/-! ## setPort -/

@[simp] theorem State.setPort_timestamp (s : State) (p : PortId) (x : Port) :
    (s.setPort p x).timestamp = s.timestamp := rfl
@[simp] theorem State.setPort_channels (s : State) (p : PortId) (x : Port) :
    (s.setPort p x).channels = s.channels := rfl
@[simp] theorem State.setPort_zones (s : State) (p : PortId) (x : Port) : (s.setPort p x).zones = s.zones := rfl
@[simp] theorem State.setPort_capture (s : State) (p : PortId) (x : Port) : (s.setPort p x).capture = s.capture := rfl
@[simp] theorem State.setPort_capLevels (s : State) (p : PortId) (x : Port) :
    (s.setPort p x).capLevels = s.capLevels := rfl
@[simp] theorem State.setPort_queues (s : State) (p : PortId) (x : Port) : (s.setPort p x).queues = s.queues := rfl
@[simp] theorem State.setPort_claims (s : State) (p : PortId) (x : Port) : (s.setPort p x).claims = s.claims := rfl
@[simp] theorem State.setPort_lines (s : State) (p : PortId) (x : Port) : (s.setPort p x).lines = s.lines := rfl
@[simp] theorem State.setPort_sessions (s : State) (p : PortId) (x : Port) :
    (s.setPort p x).sessions = s.sessions := rfl
@[simp] theorem State.setPort_ports (s : State) (p : PortId) (x : Port) :
    (s.setPort p x).ports = s.ports.set p x := rfl
@[simp] theorem State.setPort_pending (s : State) (p : PortId) (x : Port) : (s.setPort p x).pending = s.pending := rfl

/-! ## setPending -/

@[simp] theorem State.setPending_timestamp (s : State) (q : List Instr) :
    (s.setPending q).timestamp = s.timestamp := rfl
@[simp] theorem State.setPending_channels (s : State) (q : List Instr) : (s.setPending q).channels = s.channels := rfl
@[simp] theorem State.setPending_zones (s : State) (q : List Instr) : (s.setPending q).zones = s.zones := rfl
@[simp] theorem State.setPending_capture (s : State) (q : List Instr) : (s.setPending q).capture = s.capture := rfl
@[simp] theorem State.setPending_capLevels (s : State) (q : List Instr) :
    (s.setPending q).capLevels = s.capLevels := rfl
@[simp] theorem State.setPending_queues (s : State) (q : List Instr) : (s.setPending q).queues = s.queues := rfl
@[simp] theorem State.setPending_claims (s : State) (q : List Instr) : (s.setPending q).claims = s.claims := rfl
@[simp] theorem State.setPending_lines (s : State) (q : List Instr) : (s.setPending q).lines = s.lines := rfl
@[simp] theorem State.setPending_sessions (s : State) (q : List Instr) : (s.setPending q).sessions = s.sessions := rfl
@[simp] theorem State.setPending_ports (s : State) (q : List Instr) : (s.setPending q).ports = s.ports := rfl
@[simp] theorem State.setPending_pending (s : State) (q : List Instr) : (s.setPending q).pending = q := rfl

/-! ## Tables -/

/-- A table with each row changed, read at a row. -/
@[simp] theorem mapRows_get {α : Type} {n : Nat} (f : α → α) (v : Vector α n) (i : Nat) (h : i < n) :
    (mapRows f v)[i] = f v[i] := by
  simp [mapRows]

/-- Writing back what a row holds changes nothing. -/
theorem set_get_self {α : Type} {n : Nat} (v : Vector α n) (i : Fin n) : v.set i v[i] = v := by
  ext j hj
  simp only [Vector.getElem_set]
  split <;> simp_all

theorem State.setPort_self (s : State) (p : PortId) : s.setPort p s.ports[p] = s := by
  simp only [State.setPort, set_get_self]

theorem State.setSession_self (s : State) (p : PortId) : s.setSession p s.sessions[p] = s := by
  simp only [State.setSession, set_get_self]

theorem State.setLine_self (s : State) (k : LineId) : s.setLine k s.lines[k] = s := by
  simp only [State.setLine, set_get_self]

end Sys2Proof.Machine
end

