-- ==== Sys2Proof/Laws/Events.lean ====
section
/-! SUPPORT. What posting does, said once: a post, a broadcast and a list of posts are one State.posted, and posts that
follow one another are one posting of the lists joined. -/

namespace Sys2Proof.Machine

/-! ## One queue -/

@[simp] theorem EventQueue.filled_nil (q : EventQueue) : q.filled [] = q := by
  obtain ⟨rs, o, e, a⟩ := q
  have h : min 65535 o.toNat = o.toNat := by omega
  simp [EventQueue.filled, h]

/-- A saturating count of losses, raised by the number of records that found no room. -/
theorem satInc_eq (n : Half) : satInc n = BitVec.ofNat 16 (min 65535 (n.toNat + 1)) := by
  unfold satInc
  split
  · rename_i h; subst h; rfl
  · rename_i h
    apply BitVec.eq_of_toNat_eq
    have h1 : n.toNat ≠ 65535 := fun e => h (BitVec.eq_of_toNat_eq e)
    have h2 : n.toNat < 65536 := n.isLt
    have h3 : (1 : Half).toNat = 1 := rfl
    simp only [BitVec.toNat_add, BitVec.toNat_ofNat, h3]
    omega

/-- Storing one record in the queue of an OPEN session. -/
theorem EventQueue.store_eq_filled (q : EventQueue) (r : EventRecord) : q.store true r = q.filled [r] := by
  obtain ⟨rs, o, e, a⟩ := q
  have h : min 65535 o.toNat = o.toNat := by omega
  by_cases hl : rs.length < 16
  · obtain ⟨k, hk⟩ : ∃ k, 16 - rs.length = k + 1 := ⟨15 - rs.length, by omega⟩
    simp [EventQueue.store, EventQueue.filled, EventQueue.attend, attnCondition, Config.queueSize, hl, hk, h]
  · have hk : 16 - rs.length = 0 := by omega
    simp [EventQueue.store, EventQueue.filled, Config.queueSize, hl, hk, satInc_eq]

/-- Records handed over in two lots are handed over as one. -/
theorem EventQueue.filled_append (q : EventQueue) (xs ys : List EventRecord) :
    q.filled (xs ++ ys) = (q.filled xs).filled ys := by
  obtain ⟨rs, o, e, a⟩ := q
  have ho : o.toNat < 65536 := o.isLt
  have hr : Config.queueSize - rs.length - xs.length
      = Config.queueSize - (rs.length + min (Config.queueSize - rs.length) xs.length) := by omega
  simp only [EventQueue.filled, List.length_append, List.append_assoc, EventQueue.mk.injEq, List.take_append,
    List.length_take, true_and, ← hr]
  refine ⟨?_, ?_⟩
  · apply BitVec.eq_of_toNat_eq
    simp only [BitVec.toNat_ofNat]
    omega
  · by_cases h1 : xs.take (Config.queueSize - rs.length) = []
    · simp [h1]
    · by_cases h2 : ys.take (Config.queueSize - rs.length - xs.length) = []
      · simp [h1, h2]
      · simp [h1, h2]

/-! ## All the queues -/

@[simp] theorem State.posted_queue (s : State) (es : PortId → List Event) (p : Nat) (h : p < 3) :
    (s.posted es).queues[p] =
      if s.sessions[p].isOpen then s.queues[p].filled ((es ⟨p, h⟩).map fun e => ⟨e, s.timestamp⟩)
      else s.queues[p] := by
  simp [State.posted]

@[simp] theorem State.posted_timestamp (s : State) (es : PortId → List Event) :
    (s.posted es).timestamp = s.timestamp := rfl
@[simp] theorem State.posted_channels (s : State) (es : PortId → List Event) :
    (s.posted es).channels = s.channels := rfl
@[simp] theorem State.posted_zones (s : State) (es : PortId → List Event) : (s.posted es).zones = s.zones := rfl
@[simp] theorem State.posted_capture (s : State) (es : PortId → List Event) : (s.posted es).capture = s.capture := rfl
@[simp] theorem State.posted_capLevels (s : State) (es : PortId → List Event) :
    (s.posted es).capLevels = s.capLevels := rfl
@[simp] theorem State.posted_claims (s : State) (es : PortId → List Event) : (s.posted es).claims = s.claims := rfl
@[simp] theorem State.posted_lines (s : State) (es : PortId → List Event) : (s.posted es).lines = s.lines := rfl
@[simp] theorem State.posted_sessions (s : State) (es : PortId → List Event) :
    (s.posted es).sessions = s.sessions := rfl
@[simp] theorem State.posted_ports (s : State) (es : PortId → List Event) : (s.posted es).ports = s.ports := rfl
@[simp] theorem State.posted_pending (s : State) (es : PortId → List Event) : (s.posted es).pending = s.pending := rfl

/-- Two states that differ in their queues alone are equal when the queues are. -/
theorem State.eq_of_queues {s t : State} {q : Vector EventQueue 3} (h : t = { s with queues := q })
    (hq : q = s.queues) : t = s := by
  subst h hq; rfl

@[simp] theorem State.posted_nil (s : State) : (s.posted fun _ => []) = s := by
  refine State.eq_of_queues rfl ?_
  ext p hp
  simp

/-- Posting twice in one happening is posting the two lists joined. -/
theorem State.posted_posted (s : State) (f g : PortId → List Event) :
    (s.posted f).posted g = s.posted fun p => f p ++ g p := by
  have hq : ((s.posted f).posted g).queues = (s.posted fun p => f p ++ g p).queues := by
    ext p hp
    simp only [State.posted_queue, State.posted_sessions, State.posted_timestamp, List.map_append]
    split
    · rw [EventQueue.filled_append]
    · rfl
  show ({ s with queues := ((s.posted f).posted g).queues } : State) =
    { s with queues := (s.posted fun p => f p ++ g p).queues }
  rw [hq]

/-- Posting is the setting of one queue, for the sessions that get nothing keep theirs. -/
theorem State.post_eq_posted (s : State) (p : PortId) (e : Event) :
    s.post p e = s.posted fun q => if q = p then [e] else [] := by
  have hq : (s.post p e).queues = (s.posted fun q => if q = p then [e] else []).queues := by
    ext q hqq
    by_cases hp : p.val = q
    · subst hp
      by_cases ho : s.sessions[p].isOpen = true
      · simp only [Fin.getElem_fin] at ho
        simp [State.post, ho, EventQueue.store_eq_filled]
      · simp only [Fin.getElem_fin] at ho
        simp [State.post, ho]
    · have hne : (⟨q, hqq⟩ : PortId) ≠ p := fun h => hp (by rw [← h])
      by_cases ho : s.sessions[p].isOpen = true
      · simp only [Fin.getElem_fin] at ho
        simp [State.post, ho, hne, hp]
      · simp only [Fin.getElem_fin] at ho
        simp [State.post, ho, hne]
  have h1 : s.post p e = { s with queues := (s.post p e).queues } := by
    unfold State.post; split <;> rfl
  rw [h1, hq]; rfl

/-- A broadcast, to every open session or to all but one (R94). -/
theorem State.broadcast_eq_posted (s : State) (ex : Option PortId) (e : Event) :
    s.broadcast ex e = s.posted fun q => if ex = some q then [] else [e] := by
  have key : ∀ (l : List PortId) (t : State), l.Nodup →
      l.foldl (fun t p => if ex = some p then t else t.post p e) t
        = t.posted fun q => if q ∈ l ∧ ex ≠ some q then [e] else [] := by
    intro l
    induction l with
    | nil => intro t _; simp
    | cons a l ih =>
      intro t hn
      have ha : a ∉ l := (List.nodup_cons.mp hn).1
      rw [List.foldl_cons, ih _ (List.nodup_cons.mp hn).2]
      by_cases hx : ex = some a
      · simp only [hx, if_true]
        congr 1; funext q
        by_cases hq : q = a
        · subst hq; simp
        · have : some a ≠ some q := fun h => hq (Option.some.inj h).symm
          simp [hq]
      · rw [if_neg hx, State.post_eq_posted, State.posted_posted]
        congr 1; funext q
        by_cases hq : q = a
        · subst hq; simp [ha, hx]
        · simp [hq]
  rw [State.broadcast, key portIds s (by decide)]
  congr 1; funext q
  have hq : q ∈ portIds := by revert q; decide
  by_cases hx : ex = some q <;> simp [hq, hx]

/-- Several posts to one session. -/
theorem State.postAll_eq_posted (s : State) (p : PortId) (es : List Event) :
    s.postAll p es = s.posted fun q => if q = p then es else [] := by
  have key : ∀ (l : List Event) (t : State), l.foldl (fun t e => t.post p e) t
      = t.posted fun q => if q = p then l else [] := by
    intro l
    induction l with
    | nil => intro t; simp
    | cons a l ih =>
      intro t
      rw [List.foldl_cons, ih, State.post_eq_posted, State.posted_posted]
      congr 1; funext q
      by_cases hq : q = p <;> simp [hq]
  exact key es s

end Sys2Proof.Machine
end

