-- ==== Sys2Proof/Laws/Captures.lean ====
section
/-! SUPPORT. What a capture does to the ring it meets, and to the hub. -/

namespace Sys2Proof.Machine

/-- A capture meets a ring by the table of 4.4.1: the ring after, the events, and the number given when it was stored. -/
theorem CaptureState.take_eq (x : CaptureState) (r : CaptureRecord) :
    x.take r = ((x.meets r).1, (x.meets r).2,
      if x.ring.length < 4 ∨ x.policy = .keepNewest then some x.seqCounter else none) := by
  by_cases hl : x.ring.length < 4
  · simp [CaptureState.take, CaptureState.meets, CaptureState.append, Config.ringSize, hl]
  · cases hp : x.policy
    · by_cases hc : r.cause = .request
      · simp [CaptureState.take, CaptureState.meets, Config.ringSize, hl, hp, hc]
      · simp [CaptureState.take, CaptureState.meets, CaptureState.lose, Config.ringSize, hl, hp, hc, satInc_eq]
    · simp [CaptureState.take, CaptureState.meets, CaptureState.append, CaptureState.lose, Config.ringSize, hl, hp,
        satInc_eq]

/-- A capture taken into a session's ring changes that ring, and posts the ring's events to that session's queue. -/
theorem State.takeCapture_eq (s : State) (p : PortId) (cause : CaptureCause) (mask : Byte) :
    s.takeCapture p cause mask =
      ((s.setCapture p ((s.capture[p]).meets (s.captureNow cause mask)).1).posted fun q =>
          if q = p then ((s.capture[p]).meets (s.captureNow cause mask)).2 else [],
        if (s.capture[p]).ring.length < 4 ∨ (s.capture[p]).policy = .keepNewest then some (s.capture[p]).seqCounter
        else none) := by
  have h : (⟨0, cause, s.timestamp, mask, s.entriesOf mask⟩ : CaptureRecord) = s.captureNow cause mask := rfl
  rw [State.takeCapture, h, CaptureState.take_eq]
  simp only [State.postAll_eq_posted]

end Sys2Proof.Machine
end

