-- ==== Sys2Proof/Laws/Channels.lean ====
section
/-! SUPPORT. What a step does to a channel record: the wrap arithmetic of R9 and R10 in one formula. -/

namespace Sys2Proof.Machine

/-- The signed number of a direction. -/
def Direction.sign (d : Direction) : Int :=
  match d with
  | .up => 1
  | .down => -1

/-- A step of a lawful channel moves its count by one, wrapping as R9 and R10 give it; it is a linear wrap exactly when
the count of a linear channel did not move by one. -/
theorem Channel.stepped_eq {x : Channel} (h : x.Lawful) (d : Direction) :
    x.stepped d =
      (x.afterStep d.sign, decide (x.modulus = 0 ∧ (x.afterStep d.sign).count ≠ x.count + d.sign)) := by
  obtain ⟨h0, h1, h2, -⟩ := h
  obtain ⟨mode, M, inv, gu, im, st, n, t, rf, wr, hm, mk, fc, lv⟩ := x
  simp only [Config.countMin, Config.countMax, Config.turnsMin, Config.turnsMax, Config.maxModulus] at h0 h1 h2
  by_cases hM : M = 0
  · subst hM
    obtain ⟨hlo, hhi, -⟩ := h1 rfl
    cases d
    · by_cases hw : n + 1 > 2147483647
      · have hn : n = 2147483647 := by omega
        subst hn
        simp [Channel.stepped, Channel.afterStep, linearAfter, Direction.sign, Config.countMax, Config.countMin]
      · have hb : (n + 1).bmod 4294967296 = n + 1 := by rw [Int.bmod_eq_of_le] <;> omega
        simp [Channel.stepped, Channel.afterStep, linearAfter, Direction.sign, Config.countMax, hw, hb]
    · by_cases hw : n - 1 < -2147483648
      · have hn : n = -2147483648 := by omega
        subst hn
        simp [Channel.stepped, Channel.afterStep, linearAfter, Direction.sign, Config.countMax, Config.countMin]
      · have hb : (n + -1).bmod 4294967296 = n + -1 := by rw [Int.bmod_eq_of_le] <;> omega
        simp [Channel.stepped, Channel.afterStep, linearAfter, Direction.sign, Config.countMin, hw, hb]
        omega
  · obtain ⟨hlo, hhi, htl, hth, -⟩ := h2 hM
    have hM2 : 2 ≤ M := by omega
    cases d
    · by_cases hw : n = (M : Int) - 1
      · have hn : n + 1 = M := by omega
        have hM0 : (M : Int) ≠ 0 := by omega
        by_cases ht : t = 32767
        · subst ht
          simp [Channel.stepped, Channel.afterStep, modulusAfter, turnsAfter, Direction.sign, hM, hw,
            Config.turnsMax, Config.turnsMin]
        · have hb : (t + 1).bmod 65536 = t + 1 := by rw [Int.bmod_eq_of_le] <;> omega
          have hg : ¬ t + 1 > 32767 := by omega
          simp [Channel.stepped, Channel.afterStep, modulusAfter, turnsAfter, Direction.sign, hM, hw,
            Config.turnsMax, hb, hg]
      · have hq : (n + 1) % (M : Int) = n + 1 := Int.emod_eq_of_lt (by omega) (by omega)
        have hd : (n + 1) / (M : Int) = 0 := Int.ediv_eq_zero_of_lt (by omega) (by omega)
        have hb : t.bmod 65536 = t := by rw [Int.bmod_eq_of_le] <;> omega
        simp [Channel.stepped, Channel.afterStep, modulusAfter, Direction.sign, hM, hw, hq, hd, hb]
    · by_cases hw : n = 0
      · subst hw
        have hq : (-1 : Int) % (M : Int) = M - 1 := by
          rw [← Int.add_emod_right, Int.emod_eq_of_lt (by omega) (by omega)]; omega
        have hd : (-1 : Int) / (M : Int) = -1 := by
          have := Int.emod_add_mul_ediv (-1) (M : Int)
          rw [hq] at this
          have h3 : (M : Int) * ((-1) / (M : Int) + 1) = 0 := by rw [Int.mul_add]; omega
          rcases Int.mul_eq_zero.mp h3 with h4 | h4 <;> omega
        by_cases ht : t = -32768
        · subst ht
          simp [Channel.stepped, Channel.afterStep, modulusAfter, turnsAfter, Direction.sign, hM,
            Config.turnsMax, Config.turnsMin, hq, hd]
        · have hb : (t + -1).bmod 65536 = t + -1 := by rw [Int.bmod_eq_of_le] <;> omega
          have hg : ¬ t - 1 < -32768 := by omega
          simp [Channel.stepped, Channel.afterStep, modulusAfter, turnsAfter, Direction.sign, hM,
            Config.turnsMin, hq, hd, hb, hg]
          omega
      · have hq : (n + -1) % (M : Int) = n + -1 := Int.emod_eq_of_lt (by omega) (by omega)
        have hd : (n + -1) / (M : Int) = 0 := Int.ediv_eq_zero_of_lt (by omega) (by omega)
        have hb : t.bmod 65536 = t := by rw [Int.bmod_eq_of_le] <;> omega
        simp [Channel.stepped, Channel.afterStep, modulusAfter, Direction.sign, hM, hw, hq, hd, hb]
        omega

end Sys2Proof.Machine
end

