-- ==== Sys2Proof/Laws/PerInstr.lean ====
section
/-! SUPPORT. One law for every command: the body that the encoder writes for a request is as long as R181 fixes for its
kind, begins with its tag and epoch, and carries the code of its kind; a command that is no request has no body. -/

namespace Sys2Proof.Laws.EncodedLength

/-- The body of a request has the length and the header of its kind (R181); the other commands have none. -/
def Statement (i : Instr) : Prop :=
  match i.request? with
  | some (k, h) => ∃ rest, encodeRequest i = some (h.tag :: h.epoch :: (halfBytes k.code ++ rest)) ∧
    rest.length + 4 = k.bodyLen
  | none => encodeRequest i = none

theorem powerOnReset (pins : Pins) : Statement (.powerOnReset pins) := rfl
theorem abPairTransition (channel : ChanId) (change : PairChange) : Statement (.abPairTransition channel change) :=
  rfl
theorem indexEdge (channel : ChanId) : Statement (.indexEdge channel) := rfl
theorem gateChange (channel : ChanId) : Statement (.gateChange channel) := rfl
theorem captureLineEdge (line : CapId) : Statement (.captureLineEdge line) := rfl
theorem lrstNAsserted (port : PortId) : Statement (.lrstNAsserted port) := rfl
theorem lrstNReleased (port : PortId) : Statement (.lrstNReleased port) := rfl
theorem crcFailure (port : PortId) (body : List Byte) (crc : Half) : Statement (.crcFailure port body crc) := rfl
theorem framingError (port : PortId) (length : Byte) : Statement (.framingError port length) := rfl
theorem frameGapTimeout (port : PortId) : Statement (.frameGapTimeout port) := rfl
theorem pulseTimerExpiry (line : LineId) : Statement (.pulseTimerExpiry line) := rfl
theorem silenceTimeout (port : PortId) : Statement (.silenceTimeout port) := rfl
theorem awaitTimeout (port : PortId) : Statement (.awaitTimeout port) := rfl
theorem awaitEndedByStore (port : PortId) : Statement (.awaitEndedByStore port) := rfl
theorem responseSent (port : PortId) : Statement (.responseSent port) := rfl
theorem chanConfig (h : Head) (channel mode : Byte) (modulus : Word) (invert gateUse indexMark : Byte) :
    Statement (.chanConfig h channel mode modulus invert gateUse indexMark) :=
  ⟨_, rfl, rfl⟩
theorem chanPreset (h : Head) (channel : Byte) (count : Word) (turns : Half) :
    Statement (.chanPreset h channel count turns) :=
  ⟨_, rfl, rfl⟩
theorem chanHome (h : Head) (channel cancel : Byte) : Statement (.chanHome h channel cancel) := ⟨_, rfl, rfl⟩
theorem chanClearFault (h : Head) (channel : Byte) : Statement (.chanClearFault h channel) := ⟨_, rfl, rfl⟩
theorem chanRead (h : Head) (channel : Byte) : Statement (.chanRead h channel) := ⟨_, rfl, rfl⟩
theorem timeRead (h : Head) : Statement (.timeRead h) := ⟨_, rfl, rfl⟩
theorem zoneCreate (h : Head) (z : ZoneParams) : Statement (.zoneCreate h z) := ⟨_, rfl, rfl⟩
theorem zoneArm (h : Head) (zone : Byte) : Statement (.zoneArm h zone) := ⟨_, rfl, rfl⟩
theorem zoneDisarm (h : Head) (zone : Byte) : Statement (.zoneDisarm h zone) := ⟨_, rfl, rfl⟩
theorem zoneDelete (h : Head) (zone : Byte) : Statement (.zoneDelete h zone) := ⟨_, rfl, rfl⟩
theorem zoneRead (h : Head) (zone : Byte) : Statement (.zoneRead h zone) := ⟨_, rfl, rfl⟩
theorem zoneList (h : Head) : Statement (.zoneList h) := ⟨_, rfl, rfl⟩
theorem capture (h : Head) (mask : Byte) : Statement (.capture h mask) := ⟨_, rfl, rfl⟩
theorem capSubscribe (h : Head) (line edge mask : Byte) : Statement (.capSubscribe h line edge mask) := ⟨_, rfl, rfl⟩
theorem capPolicy (h : Head) (policy : Byte) : Statement (.capPolicy h policy) := ⟨_, rfl, rfl⟩
theorem capFetch (h : Head) : Statement (.capFetch h) := ⟨_, rfl, rfl⟩
theorem capAck (h : Head) (seq : Half) : Statement (.capAck h seq) := ⟨_, rfl, rfl⟩
theorem capStatus (h : Head) : Statement (.capStatus h) := ⟨_, rfl, rfl⟩
theorem evtRead (h : Head) (n : Byte) : Statement (.evtRead h n) := ⟨_, rfl, rfl⟩
theorem evtAttn (h : Head) (onOff : Byte) : Statement (.evtAttn h onOff) := ⟨_, rfl, rfl⟩
theorem claim (h : Head) (resource : Byte) : Statement (.claim h resource) := ⟨_, rfl, rfl⟩
theorem release (h : Head) (resource : Byte) : Statement (.release h resource) := ⟨_, rfl, rfl⟩
theorem claimList (h : Head) : Statement (.claimList h) := ⟨_, rfl, rfl⟩
theorem outMode (h : Head) (line mode polarity : Byte) (width : Half) (retrigger : Byte) :
    Statement (.outMode h line mode polarity width retrigger) :=
  ⟨_, rfl, rfl⟩
theorem outSet (h : Head) (line level : Byte) : Statement (.outSet h line level) := ⟨_, rfl, rfl⟩
theorem outRead (h : Head) (line : Byte) : Statement (.outRead h line) := ⟨_, rfl, rfl⟩
theorem openSession (h : Head) (silence : Byte) : Statement (.openSession h silence) := ⟨_, rfl, rfl⟩
theorem closeSession (h : Head) : Statement (.closeSession h) := ⟨_, rfl, rfl⟩
theorem nop (h : Head) : Statement (.nop h) := ⟨_, rfl, rfl⟩
theorem hubReset (h : Head) : Statement (.hubReset h) := ⟨_, rfl, rfl⟩
theorem await (h : Head) (timeout : Byte) : Statement (.await h timeout) := ⟨_, rfl, rfl⟩
theorem cancel (h : Head) : Statement (.cancel h) := ⟨_, rfl, rfl⟩
theorem ident (h : Head) : Statement (.ident h) := ⟨_, rfl, rfl⟩
theorem portStatus (h : Head) : Statement (.portStatus h) := ⟨_, rfl, rfl⟩
theorem timestampIncrement : Statement .timestampIncrement := rfl
theorem frameByteTaken (port : PortId) (byte : Byte) : Statement (.frameByteTaken port byte) := rfl
theorem unknownRequestKind (h : Head) (code : Half) : Statement (.unknownRequestKind h code) := rfl

end Sys2Proof.Laws.EncodedLength
end

