-- ==== Sys2Proof/Laws/Requests.lean ====
section
/-! SUPPORT. What the end of a happening does, and what an accepted frame does: handled by its owning block when it is
Admitted, answered or discarded otherwise. -/

namespace Sys2Proof.Machine

/-! ## Answers -/

@[simp] theorem State.answer_timestamp (s : State) (p : PortId) (tag : Byte) (k : Half) (st : Status) (r : Results) :
    (s.answer p tag k st r).timestamp = s.timestamp := by unfold State.answer State.send; dsimp only; split <;> rfl
@[simp] theorem State.answer_channels (s : State) (p : PortId) (tag : Byte) (k : Half) (st : Status) (r : Results) :
    (s.answer p tag k st r).channels = s.channels := by unfold State.answer State.send; dsimp only; split <;> rfl
@[simp] theorem State.answer_zones (s : State) (p : PortId) (tag : Byte) (k : Half) (st : Status) (r : Results) :
    (s.answer p tag k st r).zones = s.zones := by unfold State.answer State.send; dsimp only; split <;> rfl
@[simp] theorem State.answer_capture (s : State) (p : PortId) (tag : Byte) (k : Half) (st : Status) (r : Results) :
    (s.answer p tag k st r).capture = s.capture := by unfold State.answer State.send; dsimp only; split <;> rfl
@[simp] theorem State.answer_capLevels (s : State) (p : PortId) (tag : Byte) (k : Half) (st : Status) (r : Results) :
    (s.answer p tag k st r).capLevels = s.capLevels := by unfold State.answer State.send; dsimp only; split <;> rfl
@[simp] theorem State.answer_queues (s : State) (p : PortId) (tag : Byte) (k : Half) (st : Status) (r : Results) :
    (s.answer p tag k st r).queues = s.queues := by unfold State.answer State.send; dsimp only; split <;> rfl
@[simp] theorem State.answer_claims (s : State) (p : PortId) (tag : Byte) (k : Half) (st : Status) (r : Results) :
    (s.answer p tag k st r).claims = s.claims := by unfold State.answer State.send; dsimp only; split <;> rfl
@[simp] theorem State.answer_lines (s : State) (p : PortId) (tag : Byte) (k : Half) (st : Status) (r : Results) :
    (s.answer p tag k st r).lines = s.lines := by unfold State.answer State.send; dsimp only; split <;> rfl
@[simp] theorem State.answer_sessions (s : State) (p : PortId) (tag : Byte) (k : Half) (st : Status) (r : Results) :
    (s.answer p tag k st r).sessions = s.sessions := by unfold State.answer State.send; dsimp only; split <;> rfl
@[simp] theorem State.answer_pending (s : State) (p : PortId) (tag : Byte) (k : Half) (st : Status) (r : Results) :
    (s.answer p tag k st r).pending = s.pending := by unfold State.answer State.send; dsimp only; split <;> rfl

/-- The port that answers: the response joins its transmit list, and its cache when the session is OPEN (R164, R173). -/
theorem State.answer_ports (s : State) (p : PortId) (tag : Byte) (k : Half) (st : Status) (r : Results) :
    (s.answer p tag k st r).ports = s.ports.set p
      { (s.ports[p]).send ⟨tag, st, false, k, r⟩ with
        cache := if (s.sessions[p]).isOpen then some ⟨tag, st, false, k, r⟩ else (s.ports[p]).cache } := by
  unfold State.answer State.send
  dsimp only
  have hc : ((s.ports[p]).send ⟨tag, st, false, k, r⟩).cache = (s.ports[p]).cache := by
    unfold Port.send; split <;> rfl
  by_cases ho : (s.sessions[p]).isOpen = true
  · simp only [if_pos ho]; rfl
  · simp only [if_neg ho, State.setPort_ports, ← hc]

/-! ## The end of a happening -/

/-- The ending of one AWAIT by a store, field by field. -/
theorem State.endAwaitByStore_eq (s : State) (p : PortId) :
    s.endAwaitByStore p =
      match (s.ports[p]).awaiting with
      | none => s
      | some a =>
        let r : Response := ⟨a.tag, .ok, false, Kind.await.code, .depth (s.queues[p]).records.length⟩
        { s with
          ports := s.ports.set p
            { ({ s.ports[p] with awaiting := none } : Port).send r with
              cache := if (s.sessions[p]).isOpen then some r else (s.ports[p]).cache }
          sessions := s.sessions.set p { s.sessions[p] with timer := .running (s.sessions[p]).fullTime } } := by
  unfold State.endAwaitByStore State.endAwait
  split
  · rename_i a h
    simp only [h]
    have hs : ∀ t : State, t.answer p a.tag Kind.await.code .ok (.depth (s.queues[p]).records.length) =
        { t with ports := (t.answer p a.tag Kind.await.code .ok (.depth (s.queues[p]).records.length)).ports } := by
      intro t; unfold State.answer State.send; dsimp only; split <;> rfl
    rw [hs, State.answer_ports]
    simp [State.stopAwait]
  · rename_i h
    simp only [h]

/-- The ending of one AWAIT, where the queue, the port and the session stand as the happening left them. -/
theorem State.endAwaitByStore_step {before s t : State} {p : PortId} (hq : t.queues = s.queues)
    (hp : t.ports[p] = s.ports[p]) (hs : t.sessions[p] = s.sessions[p]) :
    (if stored before s p then t.endAwaitByStore p else t) =
      { t with ports := t.ports.set p (endedPort before s p), sessions := t.sessions.set p (endedSession before s p) } := by
  have hp' : t.ports.set p s.ports[p] = t.ports := by rw [← hp]; exact set_get_self _ _
  have hs' : t.sessions.set p s.sessions[p] = t.sessions := by rw [← hs]; exact set_get_self _ _
  rw [State.endAwaitByStore_eq, hp, hs, hq, endedPort, endedSession]
  cases hw : (s.ports[p]).awaiting with
  | none =>
    have hn : ¬ ((none : Option Awaiting).isSome = true ∧ stored before s p) := by simp
    simp only [if_neg hn, hp', hs', ite_self, ← hq]
  | some w =>
    by_cases hg : stored before s p
    · have hy : (some w).isSome = true ∧ stored before s p := ⟨rfl, hg⟩
      simp only [if_pos hg, if_pos hy]
    · have hn : ¬ ((some w).isSome = true ∧ stored before s p) := fun h => hg h.2
      simp only [if_neg hg, if_neg hn, hp', hs', ← hq]

/-- The AWAITs that a happening's stores end, all at once (R95, R169). -/
theorem State.notify_eq_awaitsEnded (before s : State) : before.notify s = before.awaitsEnded s := by
  have h0 := State.endAwaitByStore_step (before := before) (s := s) (t := s) (p := 0) rfl rfl rfl
  have h1 := State.endAwaitByStore_step (before := before) (s := s) (p := 1)
    (t := { s with ports := s.ports.set (0 : PortId) (endedPort before s 0),
                   sessions := s.sessions.set (0 : PortId) (endedSession before s 0) })
    rfl (by simp) (by simp)
  have h2 := State.endAwaitByStore_step (before := before) (s := s) (p := 2)
    (t := { s with ports := (s.ports.set (0 : PortId) (endedPort before s 0)).set (1 : PortId) (endedPort before s 1),
                   sessions := (s.sessions.set (0 : PortId) (endedSession before s 0)).set (1 : PortId)
                     (endedSession before s 1) })
    rfl (by simp) (by simp)
  have e1 : ((s.ports.set (0 : PortId) (endedPort before s 0)).set (1 : PortId) (endedPort before s 1)).set (2 : PortId)
      (endedPort before s 2) = Vector.ofFn (endedPort before s) := by
    ext i hi : 1
    match i, hi with
    | 0, _ => simp
    | 1, _ => simp
    | 2, _ => simp
  have e2 : ((s.sessions.set (0 : PortId) (endedSession before s 0)).set (1 : PortId) (endedSession before s 1)).set
      (2 : PortId) (endedSession before s 2) = Vector.ofFn (endedSession before s) := by
    ext i hi : 1
    match i, hi with
    | 0, _ => simp
    | 1, _ => simp
    | 2, _ => simp
  simp only [State.notify, portIds, List.foldl_cons, List.foldl_nil]
  rw [h0, h1, h2]
  simp only [e1, e2]
  rfl

/-- A happening that stores no record ends no AWAIT. -/
theorem State.awaitsEnded_of_no_growth {before s : State}
    (h : ∀ p : PortId, (s.queues[p]).records.length ≤ (before.queues[p]).records.length) :
    before.awaitsEnded s = s := by
  have hn : ∀ p : PortId, ¬ stored before s p := fun p => Nat.not_lt.mpr (h p)
  have h1 : Vector.ofFn (endedPort before s) = s.ports := by
    ext i hi : 1
    simp only [Vector.getElem_ofFn, endedPort, if_neg (hn ⟨i, hi⟩)]
    split <;> rfl
  have h2 : Vector.ofFn (endedSession before s) = s.sessions := by
    ext i hi : 1
    have : ¬ ((s.ports[(⟨i, hi⟩ : PortId)]).awaiting.isSome = true ∧ stored before s ⟨i, hi⟩) := fun h => hn _ h.2
    simp only [Vector.getElem_ofFn, endedSession, if_neg this]
    rfl
  rw [State.awaitsEnded, h1, h2]

/-- A happening that leaves every queue as it was is its effects alone. -/
theorem State.happening_of_queues {s : State} {f : State → State} (h : (f s).queues = s.queues) :
    s.happening f = f s := by
  rw [State.happening, State.notify_eq_awaitsEnded]
  exact State.awaitsEnded_of_no_growth fun p => by rw [h]

/-! ## Accepted frames -/

@[simp] theorem State.frameAccepted_ports (s : State) (p : PortId) :
    (s.frameAccepted p).ports = s.ports.set p { s.ports[p] with receiver := .hunt, gapTimer := none } := rfl
@[simp] theorem State.frameAccepted_sessions (s : State) (p : PortId) :
    (s.frameAccepted p).sessions = s.sessions.set p (s.sessions[p]).restarted := rfl
@[simp] theorem State.frameAccepted_timestamp (s : State) (p : PortId) :
    (s.frameAccepted p).timestamp = s.timestamp := rfl
@[simp] theorem State.frameAccepted_channels (s : State) (p : PortId) : (s.frameAccepted p).channels = s.channels := rfl
@[simp] theorem State.frameAccepted_zones (s : State) (p : PortId) : (s.frameAccepted p).zones = s.zones := rfl
@[simp] theorem State.frameAccepted_capture (s : State) (p : PortId) : (s.frameAccepted p).capture = s.capture := rfl
@[simp] theorem State.frameAccepted_capLevels (s : State) (p : PortId) :
    (s.frameAccepted p).capLevels = s.capLevels := rfl
@[simp] theorem State.frameAccepted_queues (s : State) (p : PortId) : (s.frameAccepted p).queues = s.queues := rfl
@[simp] theorem State.frameAccepted_claims (s : State) (p : PortId) : (s.frameAccepted p).claims = s.claims := rfl
@[simp] theorem State.frameAccepted_lines (s : State) (p : PortId) : (s.frameAccepted p).lines = s.lines := rfl
@[simp] theorem State.frameAccepted_pending (s : State) (p : PortId) : (s.frameAccepted p).pending = s.pending := rfl
@[simp] theorem State.frameAccepted_holder (s : State) (p : PortId) (r : ResId) :
    (s.frameAccepted p).holder r = s.holder r := rfl

/-- A restart of the silence timer leaves the rest of the session as it is. -/
@[simp] theorem Session.restarted_isOpen (x : Session) : x.restarted.isOpen = x.isOpen := by
  unfold Session.restarted; split <;> rfl
@[simp] theorem Session.restarted_epoch (x : Session) : x.restarted.epoch = x.epoch := by
  unfold Session.restarted; split <;> rfl
@[simp] theorem Session.restarted_silence (x : Session) : x.restarted.silence = x.silence := by
  unfold Session.restarted; split <;> rfl
@[simp] theorem Session.restarted_cause (x : Session) : x.restarted.cause = x.cause := by
  unfold Session.restarted; split <;> rfl

/-- Every kind's body length is one the receiver accepts (R158, R181). -/
theorem bodyLen_accepted (k : Kind) : Config.minBody ≤ k.bodyLen ∧ k.bodyLen ≤ Config.maxBody := by
  cases k <;> decide

/-- An admitted request is executed by its owning block after its frame is accepted (R166, check 7). -/
theorem State.request_of_admitted {s : State} {h : Head} {k : Kind} (act : State → State × Reply)
    (ha : Admitted s h k) : s.request h k act = (s.frameAccepted h.port).execute h k act := by
  obtain ⟨hl, hw, hc, he, hn, hs⟩ := ha
  have htake : s.takesFrame h = true := by
    have := bodyLen_accepted k
    simp only [State.takesFrame, hl, hn]
    simp [this]
  have hport : (s.frameAccepted h.port).ports[h.port] =
      { s.ports[h.port] with receiver := .hunt, gapTimer := none } := by simp
  have hsess : (s.frameAccepted h.port).sessions[h.port] = (s.sessions[h.port]).restarted := by simp
  have hreplay : ({ s.ports[h.port] with receiver := .hunt, gapTimer := none } : Port).replayOf h.tag = none := by
    simp only [Port.replayOf, Option.filter_eq_none_iff, beq_iff_eq]
    exact fun r hr => hc r hr
  have hb : ¬ ((s.ports[h.port]).awaiting.isSome = true ∧ k ≠ .cancel) := by
    rintro ⟨h1, h2⟩
    rcases he with he | he
    · rw [he] at h1; cases h1
    · exact h2 he
  have href : ((s.sessions[h.port]).restarted).refusal k h.epoch = none := by
    simp only [Session.refusal, Session.restarted_isOpen, Session.restarted_epoch]
    by_cases ho : (s.sessions[h.port]).isOpen = true
    · rw [if_pos ho] at hs ⊢
      rw [if_pos hs]
    · rw [if_neg ho] at hs ⊢
      rw [if_pos hs]
  have hov : ¬ Config.overrunAt ≤ (s.ports[h.port]).waiting.length := by
    simp only [Config.overrunAt]; omega
  rw [State.request, htake, if_pos rfl, State.admitKnown]
  simp only [hport, hsess, hreplay, href]
  rw [if_neg hov, if_neg hb, if_neg (by simpa using hn)]

end Sys2Proof.Machine
end

