-- ==== Sys2Proof/Laws/Teardown.lean ====
section
/-! SUPPORT. What freeing claims and tearing a session down do, said at once for the whole tables. -/

namespace Sys2Proof.Machine

/-- The CLAIM_FREED records that freeing the entries of a list gives a session (R113, R116). -/
def State.freedEvents (s : State) (p : PortId) (l : List ResId) (q : PortId) : List Event :=
  if q = p then [] else (l.filter fun r => s.holder r = some p).map .claimFreed

/-- An entry after the entries of a list have been freed from a session. -/
def State.freedClaim (s : State) (p : PortId) (l : List ResId) (r : ResId) : Option Claim :=
  if r ∈ l ∧ s.holder r = some p then none else s.claims[r]

/-- A line after the entries of a list have been freed from a session (R130). -/
def State.freedLine (s : State) (p : PortId) (l : List ResId) (k : LineId) : OutLine :=
  if lineRes k ∈ l ∧ s.holder (lineRes k) = some p then OutLine.defaults (s.lines[k]).safe else s.lines[k]

theorem resLine_eq (r : ResId) (k : LineId) : resLine r = some k ↔ lineRes k = r := by
  revert r k; decide

/-- The return of a freed line to its safe level, said for the whole table. -/
theorem State.releaseLine_eq (s : State) (r : ResId) :
    s.releaseLine r = { s with
      lines := Vector.ofFn fun k => if lineRes k = r then OutLine.defaults (s.lines[k]).safe else s.lines[k] } := by
  unfold State.releaseLine
  cases h : resLine r with
  | none =>
    have hn : ∀ k, lineRes k ≠ r := fun k hk => by
      have := (resLine_eq r k).mpr hk; rw [h] at this; cases this
    have hv : (Vector.ofFn fun k : LineId =>
        if lineRes k = r then OutLine.defaults (s.lines[k]).safe else s.lines[k]) = s.lines := by
      ext1 i hi; simp [hn]
    rw [hv]
  | some j =>
    have hj : ∀ k, lineRes k = r ↔ k = j := by
      intro k
      rw [← resLine_eq, h]
      exact ⟨fun e => (Option.some.inj e).symm, fun e => by rw [e]⟩
    have hv : s.lines.set j (OutLine.defaults (s.lines[j]).safe) = (Vector.ofFn fun k : LineId =>
        if lineRes k = r then OutLine.defaults (s.lines[k]).safe else s.lines[k]) := by
      ext1 i hi
      simp only [hj, Vector.getElem_ofFn]
      by_cases he : j.val = i
      · subst he; simp
      · have hne : (⟨i, hi⟩ : LineId) ≠ j := fun e => he (by rw [← e])
        simp [he, hne]
    dsimp only
    rw [← hv]; rfl

/-- The freeing of one entry that a session holds. -/
theorem State.freeClaim_eq (s : State) (p : PortId) (r : ResId) (h : s.holder r = some p) :
    s.freeClaim p r = { s with
      queues := (s.posted (s.freedEvents p [r])).queues, claims := Vector.ofFn (s.freedClaim p [r])
      lines := Vector.ofFn (s.freedLine p [r]) } := by
  have he : s.freedEvents p [r] = fun q => if some p = some q then [] else [.claimFreed r] := by
    funext q
    by_cases hq : q = p
    · simp [State.freedEvents, hq]
    · simp [State.freedEvents, hq, h, Ne.symm hq]
  have hc : Vector.ofFn (s.freedClaim p [r]) = s.claims.set r none := by
    ext1 i hi
    by_cases hr : r.val = i
    · subst hr; simp [State.freedClaim, h]
    · have hne : (⟨i, hi⟩ : ResId) ≠ r := fun e => hr (by rw [← e])
      simp [State.freedClaim, hr, hne]
  have hl : Vector.ofFn (s.freedLine p [r]) =
      Vector.ofFn fun k => if lineRes k = r then OutLine.defaults (s.lines[k]).safe else s.lines[k] := by
    congr 1; funext k
    by_cases hk : lineRes k = r
    · simp [State.freedLine, hk, h]
    · simp [State.freedLine, hk]
  rw [State.freeClaim, State.broadcast_eq_posted, State.releaseLine_eq, he, hc, hl]
  rfl

/-- The entries of a list without repeats freed one after another. -/
theorem State.freeClaims_foldl (p : PortId) (l : List ResId) (s : State) (hl : l.Nodup) :
    l.foldl (fun t r => if t.holder r = some p then t.freeClaim p r else t) s = { s with
      queues := (s.posted (s.freedEvents p l)).queues, claims := Vector.ofFn (s.freedClaim p l)
      lines := Vector.ofFn (s.freedLine p l) } := by
  induction l generalizing s with
  | nil =>
    have he : s.freedEvents p [] = fun _ => [] := by funext q; simp [State.freedEvents]
    have hc : Vector.ofFn (s.freedClaim p []) = s.claims := by ext1 i hi; simp [State.freedClaim]
    have hv : Vector.ofFn (s.freedLine p []) = s.lines := by ext1 i hi; simp [State.freedLine]
    simp only [List.foldl_nil, he, hc, hv, State.posted_nil]
  | cons a l ih =>
    obtain ⟨ha, hn⟩ := List.nodup_cons.mp hl
    rw [List.foldl_cons, ih _ hn]
    by_cases hh : s.holder a = some p
    · rw [if_pos hh, State.freeClaim_eq s p a hh]
      obtain ⟨u, hu⟩ : ∃ u : State, u = { s with
          queues := (s.posted (s.freedEvents p [a])).queues, claims := Vector.ofFn (s.freedClaim p [a])
          lines := Vector.ofFn (s.freedLine p [a]) } := ⟨_, rfl⟩
      have huh : ∀ r, u.holder r = if r = a then none else s.holder r := by
        intro r
        have hr : u.claims[r] = s.freedClaim p [a] r := by rw [hu]; simp
        rw [State.holder, hr]
        by_cases he : r = a
        · subst he; simp [State.freedClaim, hh]
        · simp [State.freedClaim, he]; rfl
      have hin : ∀ r, (r ∈ l ∧ u.holder r = some p) ↔ (r ∈ l ∧ s.holder r = some p) := by
        intro r
        by_cases he : r = a
        · subst he; simp [ha]
        · simp [huh, he]
      have hq : (u.posted (u.freedEvents p l)).queues = (s.posted (s.freedEvents p (a :: l))).queues := by
        have h1 : u.freedEvents p l = s.freedEvents p l := by
          funext q
          unfold State.freedEvents
          have : l.filter (fun r => u.holder r = some p) = l.filter (fun r => s.holder r = some p) :=
            List.filter_congr fun r hr => by simpa [hr] using hin r
          rw [this]
        have h2 : (fun q => s.freedEvents p [a] q ++ s.freedEvents p l q) = s.freedEvents p (a :: l) := by
          funext q
          by_cases hq : q = p
          · simp [State.freedEvents, hq]
          · simp [State.freedEvents, hq, hh]
        rw [← h2, ← State.posted_posted, h1, hu]
        rfl
      have hc : u.freedClaim p l = s.freedClaim p (a :: l) := by
        funext r
        have hr : u.claims[r] = s.freedClaim p [a] r := by rw [hu]; simp
        simp only [State.freedClaim, hin, hr]
        by_cases he : r = a
        · subst he; simp [ha, hh]
        · simp [he]
      have hv : u.freedLine p l = s.freedLine p (a :: l) := by
        funext k
        have hk : u.lines[k] = s.freedLine p [a] k := by rw [hu]; simp
        simp only [State.freedLine, hin, hk]
        by_cases he : lineRes k = a
        · simp [he, ha, hh]
        · simp [he]
      rw [← hu, hq, hc, hv, hu]
    · rw [if_neg hh]
      have hm : ∀ r, (r ∈ a :: l ∧ s.holder r = some p) ↔ (r ∈ l ∧ s.holder r = some p) := by
        intro r
        constructor
        · rintro ⟨h1, h2⟩
          rcases List.mem_cons.mp h1 with rfl | h1
          · exact absurd h2 hh
          · exact ⟨h1, h2⟩
        · rintro ⟨h1, h2⟩; exact ⟨List.mem_cons_of_mem _ h1, h2⟩
      have he : s.freedEvents p (a :: l) = s.freedEvents p l := by
        funext q; simp [State.freedEvents, hh]
      have hc : s.freedClaim p (a :: l) = s.freedClaim p l := by funext r; simp only [State.freedClaim, hm]
      have hv : s.freedLine p (a :: l) = s.freedLine p l := by funext k; simp only [State.freedLine, hm]
      rw [he, hc, hv]

/-- The teardown of an OPEN session said at once for the whole tables (R148). -/
theorem State.teardown_eq (s : State) (p : PortId) (cause : CloseCause) : s.teardown p cause = s.tornDown p cause := by
  have hz : mapRows (withoutOwner p) s.zones =
      Vector.ofFn fun z : ZoneId => (s.zones[z]).filter fun x => x.owner ≠ p := by
    ext1 i hi
    simp only [mapRows_get, Vector.getElem_ofFn, withoutOwner]
    congr 1
    funext x
    simp [bne, BEq.beq]
  have hf : ∀ Z, (s.setZones Z).freeClaims p = { s.setZones Z with
      queues := (s.posted fun q =>
        if q = p then [] else ((List.finRange 14).filter fun r => s.holder r = some p).map .claimFreed).queues
      claims := Vector.ofFn fun r => if s.holder r = some p then none else s.claims[r]
      lines := Vector.ofFn fun k =>
        if s.holder (lineRes k) = some p then OutLine.defaults (s.lines[k]).safe else s.lines[k] } := by
    intro Z
    have hh : ∀ r, (s.setZones Z).holder r = s.holder r := fun r => by simp only [State.holder, State.setZones_claims]
    have hc : Vector.ofFn ((s.setZones Z).freedClaim p (List.finRange 14)) =
        Vector.ofFn fun r => if s.holder r = some p then none else s.claims[r] := by
      refine congrArg Vector.ofFn (funext fun r => ?_)
      simp only [State.freedClaim, List.mem_finRange, true_and, hh, State.setZones_claims]
    have hl : Vector.ofFn ((s.setZones Z).freedLine p (List.finRange 14)) =
        Vector.ofFn fun k =>
          if s.holder (lineRes k) = some p then OutLine.defaults (s.lines[k]).safe else s.lines[k] := by
      refine congrArg Vector.ofFn (funext fun k => ?_)
      simp only [State.freedLine, List.mem_finRange, true_and, hh, State.setZones_lines]
    have he : (s.setZones Z).freedEvents p (List.finRange 14) = fun q =>
        if q = p then [] else ((List.finRange 14).filter fun r => s.holder r = some p).map .claimFreed := by
      funext q; simp only [State.freedEvents, hh]
    rw [State.freeClaims, State.freeClaims_foldl p _ _ (List.nodup_finRange 14), hc, hl, he]
    rfl
  have hp : ((s.posted fun q => if q = p then [] else
      ((List.finRange 14).filter fun r => s.holder r = some p).map .claimFreed).queues[p]).emptied =
      { s.queues[p] with records := [], overflow := 0, attn := false } := by
    simp only [Fin.getElem_fin, State.posted_queue, Fin.eta, if_true, List.map_nil, EventQueue.filled_nil, ite_self]
    rfl
  simp only [State.teardown, hz, hf, State.setCapture, State.setQueue, hp]
  simp only [State.tornDown, State.setPort, State.setSession, State.setZones, State.posted_timestamp,
    State.posted_channels, State.posted_capLevels, State.posted_pending]

end Sys2Proof.Machine
end

