-- ==== Sys2Proof/Laws/Zones.lean ====
section
/-! SUPPORT. What the evaluation of the zones can do: a discontinuity said at once for the whole table, and the frame of a
step. -/

namespace Sys2Proof.Machine

/-! ## Output lines -/

@[simp] theorem OutLine.driven_driven (l : OutLine) (d e : Drive) : (l.driven d).driven e = l.driven e := rfl
@[simp] theorem OutLine.driven_mode (l : OutLine) (d : Drive) : (l.driven d).mode = l.mode := rfl

/-- Two states that differ in their lines alone are equal when the lines are. -/
theorem State.eq_of_lines {s t : State} {v : Vector OutLine 6} (h : t = { s with lines := v }) (hv : v = s.lines) :
    t = s := by
  subst h hv; rfl

/-- A re-computation asked for through a link changes the lines alone: a held FOLLOW line that the link follows is driven
from its following zones (R50, R124). -/
theorem State.recomputeLink_eq (s : State) (link : Option Link) :
    s.recomputeLink link = { s with
      lines := Vector.ofFn fun k =>
        if s.lineHeld k ∧ (s.lines[k]).mode = .follow ∧ link = some ⟨k, true⟩ then (s.lines[k]).driven (s.followDrive k)
        else s.lines[k] } := by
  have hid : Vector.ofFn (fun k : LineId => s.lines[k]) = s.lines := by ext i hi; simp
  match link with
  | none => simp [State.recomputeLink]
  | some ⟨j, false⟩ => simp [State.recomputeLink]
  | some ⟨j, true⟩ =>
    by_cases hg : s.lineHeld j = true ∧ (s.lines[j]).mode = .follow
    · simp only [State.recomputeLink, State.recompute, if_pos hg, if_true, State.setLine]
      congr 1
      ext1 i hi
      by_cases hj : j.val = i
      · subst hj
        simp only [Vector.getElem_set_self, Vector.getElem_ofFn, Fin.eta]
        rw [if_pos ⟨hg.1, hg.2, trivial⟩]
      · have hne : j ≠ ⟨i, hi⟩ := fun h => hj (by rw [h])
        simp [hj, hne]
    · simp only [State.recomputeLink, State.recompute, if_neg hg, if_true]
      refine (State.eq_of_lines rfl ?_).symm
      refine Eq.trans ?_ hid
      congr 1
      funext k
      refine if_neg ?_
      rintro ⟨h1, h2, h3⟩
      injection h3 with h3
      injection h3 with h3
      subst h3
      exact hg ⟨h1, h2⟩

/-! ## Discontinuities -/

/-- The events that a changed slot of a discontinuity gives a session. -/
def State.resyncEvents (s : State) (l : List (ZoneId × ZoneState)) (p : PortId) : List Event :=
  l.filterMap fun m => ((s.zones[m.1]).filter fun x => x.owner = p).map fun _ => .zoneResync m.1 m.2

/-- A line after the changed slots of a discontinuity have asked for their re-computations. -/
def State.resyncLine (s : State) (l : List (ZoneId × ZoneState)) (k : LineId) : OutLine :=
  if s.lineHeld k ∧ (s.lines[k]).mode = .follow ∧ ∃ m ∈ l, ∃ x ∈ s.zones[m.1], x.link = some ⟨k, true⟩ then
    (s.lines[k]).driven (s.followDrive k)
  else s.lines[k]

/-- One changed zone of a discontinuity reaches the queues and the lines alone. -/
theorem State.resyncZone_eq (s : State) (m : ZoneId × ZoneState) :
    s.resyncZone m = { s with
      queues := (s.posted (s.resyncEvents [m])).queues, lines := Vector.ofFn (s.resyncLine [m]) } := by
  cases hz : s.zones[m.1] with
  | none =>
    have he : s.resyncEvents [m] = fun _ => [] := by
      funext p; simp [State.resyncEvents, -Fin.getElem_fin, hz]
    have hl : Vector.ofFn (s.resyncLine [m]) = s.lines := by
      ext1 i hi; simp [State.resyncLine, -Fin.getElem_fin, hz]; rfl
    simp only [State.resyncZone, hz, he, hl, State.posted_nil]
  | some x =>
    have he : s.resyncEvents [m] = fun q => if q = x.owner then [.zoneResync m.1 m.2] else [] := by
      funext p
      by_cases ho : x.owner = p
      · simp [State.resyncEvents, -Fin.getElem_fin, hz, ho]
      · simp [State.resyncEvents, -Fin.getElem_fin, hz, ho, Ne.symm ho]
    have hl : s.resyncLine [m] = fun k =>
        if s.lineHeld k ∧ (s.lines[k]).mode = .follow ∧ x.link = some ⟨k, true⟩ then
          (s.lines[k]).driven (s.followDrive k)
        else s.lines[k] := by
      funext k; simp [State.resyncLine, -Fin.getElem_fin, hz]
    simp only [State.resyncZone, hz, he, hl, State.post_eq_posted, State.recomputeLink_eq]
    rfl

/-- The changed zones of a discontinuity together: ZONE_RESYNC to their owners in the order of the list, and the FOLLOW
lines they are followed by driven from the zones, whose states are in place. -/
theorem State.resyncZone_foldl (l : List (ZoneId × ZoneState)) (s : State) :
    l.foldl State.resyncZone s = { s with
      queues := (s.posted (s.resyncEvents l)).queues, lines := Vector.ofFn (s.resyncLine l) } := by
  induction l generalizing s with
  | nil =>
    have he : s.resyncEvents [] = fun _ => [] := rfl
    have hl : Vector.ofFn (s.resyncLine []) = s.lines := by
      ext1 i hi; simp [State.resyncLine]
    simp only [List.foldl_nil, he, hl, State.posted_nil]
  | cons a l ih =>
    rw [List.foldl_cons, ih, State.resyncZone_eq]
    have hq : ((s.posted (s.resyncEvents [a])).posted (s.resyncEvents l)).queues =
        (s.posted (s.resyncEvents (a :: l))).queues := by
      rw [State.posted_posted]
      have hf : (fun p => s.resyncEvents [a] p ++ s.resyncEvents l p) = s.resyncEvents (a :: l) := by
        funext p; rw [State.resyncEvents, State.resyncEvents, ← List.filterMap_append]; rfl
      rw [hf]
    have hl : ∀ (k : LineId) (o : OutLine), o = s.resyncLine [a] k →
        (if s.lineHeld k ∧ o.mode = .follow ∧ ∃ m ∈ l, ∃ x ∈ s.zones[m.1], x.link = some ⟨k, true⟩ then
          o.driven (s.followDrive k) else o) = s.resyncLine (a :: l) k := by
      rintro k o rfl
      by_cases hg : s.lineHeld k = true ∧ (s.lines[k]).mode = .follow
      · have h1 : (∃ m ∈ [a], ∃ x ∈ s.zones[m.1], x.link = some ⟨k, true⟩) ↔
            ∃ x ∈ s.zones[a.1], x.link = some ⟨k, true⟩ := by simp [-Fin.getElem_fin]
        have h2 : (∃ m ∈ a :: l, ∃ x ∈ s.zones[m.1], x.link = some ⟨k, true⟩) ↔
            (∃ x ∈ s.zones[a.1], x.link = some ⟨k, true⟩) ∨ ∃ m ∈ l, ∃ x ∈ s.zones[m.1], x.link = some ⟨k, true⟩ := by
          simp [-Fin.getElem_fin]
        have hm : ∀ d : Drive, ((s.lines[k]).driven d).mode = .follow := fun _ => hg.2
        simp only [State.resyncLine, hg.1, hg.2, true_and, h1, h2]
        by_cases p1 : ∃ x ∈ s.zones[a.1], x.link = some ⟨k, true⟩ <;>
          by_cases p2 : ∃ m ∈ l, ∃ x ∈ s.zones[m.1], x.link = some ⟨k, true⟩ <;>
          simp only [p1, p2, hg.2, hm, if_true, if_false, true_and, or_true, or_false, or_self, and_false,
            OutLine.driven_driven]
      · have hn : ∀ P : Prop, ¬ (s.lineHeld k = true ∧ (s.lines[k]).mode = .follow ∧ P) :=
          fun P h => hg ⟨h.1, h.2.1⟩
        simp only [State.resyncLine, if_neg (hn _)]
    have hv : Vector.ofFn (fun k : LineId =>
        if s.lineHeld k ∧ ((Vector.ofFn (s.resyncLine [a]))[k]).mode = .follow ∧
            ∃ m ∈ l, ∃ x ∈ s.zones[m.1], x.link = some ⟨k, true⟩ then
          ((Vector.ofFn (s.resyncLine [a]))[k]).driven (s.followDrive k)
        else (Vector.ofFn (s.resyncLine [a]))[k]) = Vector.ofFn (s.resyncLine (a :: l)) := by
      congr 1; funext k; exact hl k _ (by simp)
    rw [← hq, ← hv]
    rfl

/-- What a discontinuity makes of the slots of the table: the changed ones, with their new states (R51). -/
theorem slotResync_eq (s : State) (c : ChanId) (z : ZoneId) :
    slotResync c (s.channels[c]).modulus (s.channels[c]).count s.zones[z] =
      (s.resyncedZone c z).map fun x => (s.zoneResynced c x).state := by
  cases hz : s.zones[z] with
  | none => simp [slotResync, State.resyncedZone, -Fin.getElem_fin, hz]
  | some x =>
    by_cases hc : x.channel = c ∧ x.armed = true
    · obtain ⟨rfl, ha⟩ := hc
      have hr : x.rawState (s.channels[x.channel]).modulus (s.channels[x.channel]).count = s.rawState x := rfl
      by_cases hs : s.rawState x = x.state
      · simp [slotResync, State.resyncedZone, State.zoneResynced, -Fin.getElem_fin, hz, ha, hr, hs]
      · simp [slotResync, State.resyncedZone, State.zoneResynced, -Fin.getElem_fin, hz, ha, hr, hs]
    · have hn : ¬ (x.channel = c ∧ x.armed = true ∧
          x.rawState (s.channels[c]).modulus (s.channels[c]).count ≠ x.state) := fun h => hc ⟨h.1, h.2.1⟩
      simp only [slotResync, State.resyncedZone, State.zoneResynced, hz, if_neg hn, if_neg hc, Option.filter_some,
        ne_eq, not_true_eq_false, decide_false, Bool.false_eq_true, if_false, Option.map_none]

theorem slotResynced_eq (s : State) (c : ChanId) (o : Option Zone) :
    slotResynced c (s.channels[c]).modulus (s.channels[c]).count o = o.map (s.zoneResynced c) := by
  cases o with
  | none => rfl
  | some x =>
    by_cases hc : x.channel = c ∧ x.armed = true
    · obtain ⟨rfl, ha⟩ := hc
      have hr : x.rawState (s.channels[x.channel]).modulus (s.channels[x.channel]).count = s.rawState x := rfl
      by_cases hs : s.rawState x = x.state
      · simp [slotResynced, slotResync, State.zoneResynced, -Fin.getElem_fin, ha, hr, hs]
        rw [← ha]
      · simp [slotResynced, slotResync, State.zoneResynced, -Fin.getElem_fin, ha, hr, hs]
    · have hn : ¬ (x.channel = c ∧ x.armed = true ∧
          x.rawState (s.channels[c]).modulus (s.channels[c]).count ≠ x.state) := fun h => hc ⟨h.1, h.2.1⟩
      simp only [slotResynced, slotResync, State.zoneResynced, if_neg hn, if_neg hc, Option.map_some]

/-- The slots that a discontinuity changes, with their new states. -/
def State.resyncs (s : State) (c : ChanId) : List (ZoneId × ZoneState) :=
  s.slotsWith (slotResync c (s.channels[c]).modulus (s.channels[c]).count)

theorem State.mem_resyncs {s : State} {c : ChanId} {z : ZoneId} {st : ZoneState} :
    (z, st) ∈ s.resyncs c ↔ ∃ x ∈ s.resyncedZone c z, st = (s.zoneResynced c x).state := by
  simp only [State.resyncs, State.slotsWith, slotResync_eq, List.mem_filterMap, List.mem_finRange, true_and,
    Option.map_map, Option.map_eq_some_iff, Function.comp, Prod.mk.injEq, Option.mem_def]
  constructor
  · rintro ⟨w, x, hx, rfl, rfl⟩; exact ⟨x, hx, rfl⟩
  · rintro ⟨x, hx, rfl⟩; exact ⟨z, x, hx, rfl, rfl⟩

theorem State.resyncedZone_zone {s : State} {c : ChanId} {z : ZoneId} {x : Zone} (h : x ∈ s.resyncedZone c z) :
    s.zones[z] = some x := (Option.filter_eq_some_iff.mp h).1

theorem State.zoneResynced_owner (s : State) (c : ChanId) (x : Zone) : (s.zoneResynced c x).owner = x.owner := by
  unfold State.zoneResynced; split <;> rfl
theorem State.zoneResynced_link (s : State) (c : ChanId) (x : Zone) : (s.zoneResynced c x).link = x.link := by
  unfold State.zoneResynced; split <;> rfl

/-- The events of a discontinuity, from the table with its new states. -/
theorem State.resyncEvents_resyncs {s u : State} {c : ChanId}
    (hu : ∀ z : ZoneId, u.zones[z] = (s.zones[z]).map (s.zoneResynced c)) (p : PortId) :
    u.resyncEvents (s.resyncs c) p = (List.finRange 32).filterMap fun z =>
      ((s.resyncedZone c z).filter fun x => x.owner = p).map fun x => .zoneResync z (s.zoneResynced c x).state := by
  simp only [State.resyncEvents, State.resyncs, State.slotsWith, List.filterMap_filterMap, slotResync_eq]
  congr 1
  funext z
  cases hr : s.resyncedZone c z with
  | none => rfl
  | some x =>
    simp only [Option.map_some, Option.bind_some, hu, State.resyncedZone_zone hr]
    by_cases ho : x.owner = p
    · simp only [Option.filter_some, State.zoneResynced_owner, ho, decide_true, if_true, Option.map_some]
    · simp only [Option.filter_some, State.zoneResynced_owner, ho, decide_false, Bool.false_eq_true, if_false,
        Option.map_none]

/-- The lines of a discontinuity, from the table with its new states. -/
theorem State.resyncLine_resyncs {s u : State} {c : ChanId}
    (hu : ∀ z : ZoneId, u.zones[z] = (s.zones[z]).map (s.zoneResynced c)) (k : LineId)
    (hh : u.claims = s.claims) (hl : u.lines = s.lines) :
    u.resyncLine (s.resyncs c) k =
      if s.lineHeld k ∧ (s.lines[k]).mode = .follow ∧
          ∃ z : ZoneId, ∃ x ∈ s.resyncedZone c z, x.link = some ⟨k, true⟩ then
        (s.lines[k]).driven (u.followDrive k)
      else s.lines[k] := by
  have hx : (∃ m ∈ s.resyncs c, ∃ x ∈ u.zones[m.1], x.link = some ⟨k, true⟩) ↔
      ∃ z : ZoneId, ∃ x ∈ s.resyncedZone c z, x.link = some ⟨k, true⟩ := by
    constructor
    · rintro ⟨⟨z, st⟩, hm, y, hy, hk⟩
      obtain ⟨x, hxm, -⟩ := State.mem_resyncs.mp hm
      refine ⟨z, x, hxm, ?_⟩
      rw [hu, State.resyncedZone_zone hxm] at hy
      injection hy with hy
      rw [← State.zoneResynced_link s c, hy]; exact hk
    · rintro ⟨z, x, hxm, hk⟩
      refine ⟨(z, _), State.mem_resyncs.mpr ⟨x, hxm, rfl⟩, s.zoneResynced c x, ?_, ?_⟩
      · rw [hu, State.resyncedZone_zone hxm]; rfl
      · rw [State.zoneResynced_link]; exact hk
  have hk : u.lineHeld k = s.lineHeld k := by rw [State.lineHeld, hh]; rfl
  simp only [State.resyncLine, hx, hk, hl]

/-- A discontinuity said at once for the whole table (R51, R52). -/
theorem State.discontinuity_eq (s : State) (c : ChanId) : s.discontinuity c = s.resynced c := by
  have hz : mapRows (slotResynced c (s.channels[c]).modulus (s.channels[c]).count) s.zones =
      Vector.ofFn fun z : ZoneId => (s.zones[z]).map (s.zoneResynced c) := by
    ext1 i hi
    simp only [mapRows_get, Vector.getElem_ofFn]
    exact slotResynced_eq s c _
  have hd : s.discontinuity c = (s.resyncs c).foldl State.resyncZone
      (s.setZones (Vector.ofFn fun z : ZoneId => (s.zones[z]).map (s.zoneResynced c))) := by
    rw [← hz]; rfl
  have hu : ∀ z : ZoneId, (s.setZones (Vector.ofFn fun z : ZoneId => (s.zones[z]).map (s.zoneResynced c))).zones[z] =
      (s.zones[z]).map (s.zoneResynced c) := by intro z; simp
  have hl : Vector.ofFn ((s.setZones (Vector.ofFn fun z : ZoneId => (s.zones[z]).map (s.zoneResynced c))).resyncLine
      (s.resyncs c)) = (s.resynced c).lines := by
    simp only [State.resynced]
    refine congrArg Vector.ofFn (funext fun k => ?_)
    rw [State.resyncLine_resyncs hu k (State.setZones_claims _ _) (State.setZones_lines _ _)]
    by_cases hp : s.lineHeld k = true ∧ (s.lines[k]).mode = .follow ∧
        ∃ z : ZoneId, ∃ x ∈ s.resyncedZone c z, x.link = some ⟨k, true⟩
    · rw [if_pos hp, if_pos hp]; rfl
    · rw [if_neg hp, if_neg hp]
  have hr : s.resynced c = { s with
      zones := Vector.ofFn fun z : ZoneId => (s.zones[z]).map (s.zoneResynced c)
      queues := (s.posted fun p => (List.finRange 32).filterMap fun z =>
        ((s.resyncedZone c z).filter fun x => x.owner = p).map fun x =>
          .zoneResync z (s.zoneResynced c x).state).queues
      lines := (s.resynced c).lines } := rfl
  have hq : ∀ Z f, ((s.setZones Z).posted f).queues = (s.posted f).queues := fun _ _ => rfl
  rw [hd, State.resyncZone_foldl, funext (State.resyncEvents_resyncs hu), hl, hq]
  refine Eq.trans ?_ hr.symm
  simp only [State.setZones]

/-! ## Steps -/

/-- The actions of a transition reach the rings, the queues and the lines alone. -/
theorem State.takeActions_frame (s : State) (m : ZoneId × Transition) :
    s.takeActions m = { s with
      capture := (s.takeActions m).capture, queues := (s.takeActions m).queues, lines := (s.takeActions m).lines } := by
  unfold State.takeActions
  split
  · rfl
  · rename_i x _
    have h1 : ∀ t : State, t.actEvent m.1 x m.2 = { t with queues := (t.actEvent m.1 x m.2).queues } := by
      intro t; unfold State.actEvent State.post; split <;> [split <;> rfl; rfl]
    have h2 : ∀ t : State, t.actCapture m.1 x m.2 =
        { t with capture := (t.actCapture m.1 x m.2).capture, queues := (t.actCapture m.1 x m.2).queues } := by
      intro t; unfold State.actCapture; split
      · rfl
      · rw [State.takeCapture_eq]; rfl
    have h3 : ∀ t : State, t.actLink x m.2 = { t with lines := (t.actLink x m.2).lines } := by
      intro t; unfold State.actLink State.recompute State.trigger; split
      · rfl
      · dsimp only; split <;> split <;> (try split) <;> (try split) <;> rfl
    rw [h3, h2, h1]

theorem State.takeActions_foldl_frame (l : List (ZoneId × Transition)) (s : State) :
    l.foldl State.takeActions s = { s with
      capture := (l.foldl State.takeActions s).capture, queues := (l.foldl State.takeActions s).queues
      lines := (l.foldl State.takeActions s).lines } := by
  induction l generalizing s with
  | nil => rfl
  | cons a l ih => rw [List.foldl_cons, ih, State.takeActions_frame]

/-- What a transition does to its owner's ring: its capture meets it, if its action set has a mask (R49). -/
def State.transitionRing (s : State) (z : ZoneId) (x : Zone) (m : Transition) : CaptureState × List Event :=
  if (x.actionSet m).mask = 0 then (s.capture[x.owner], [])
  else (s.capture[x.owner]).meets (s.captureNow (transitionCause m z) (x.actionSet m).mask)

/-- The events of a transition: its own, if its action set asks for one, then those of the ring (R48, R49). -/
def State.transitionEvents (s : State) (z : ZoneId) (x : Zone) (m : Transition) : List Event :=
  (if (x.actionSet m).event then
    [transitionEvent m z (s.channels[x.channel]).count (s.channels[x.channel]).turns] else [])
    ++ (s.transitionRing z x m).2

/-- The actions of a transition, as they reach the rings and the queues: the owner's alone. -/
theorem State.takeActions_eq (s : State) (z : ZoneId) (x : Zone) (m : Transition) (hz : s.zones[z] = some x) :
    s.takeActions (z, m) =
      { s.posted fun q => if q = x.owner then s.transitionEvents z x m else [] with
        capture := s.capture.set x.owner (s.transitionRing z x m).1
        lines := (s.takeActions (z, m)).lines } := by
  have hl : ∀ t : State, t.actLink x m = { t with lines := (t.actLink x m).lines } := by
    intro t; unfold State.actLink State.recompute State.trigger; split
    · rfl
    · dsimp only; split <;> split <;> (try split) <;> (try split) <;> rfl
  have he : s.actEvent z x m = s.posted fun q =>
      if q = x.owner ∧ (x.actionSet m).event then
        [transitionEvent m z (s.channels[x.channel]).count (s.channels[x.channel]).turns] else [] := by
    unfold State.actEvent
    by_cases h : (x.actionSet m).event = true
    · simp only [h, if_true, and_true, State.post_eq_posted]
    · simp [h]
  have ha : (s.actEvent z x m).actCapture z x m =
      { s.posted fun q => if q = x.owner then s.transitionEvents z x m else [] with
        capture := s.capture.set x.owner (s.transitionRing z x m).1 } := by
    rw [he, State.actCapture, State.transitionEvents, State.transitionRing]
    by_cases hm : (x.actionSet m).mask = 0
    · have hs : s.capture.set x.owner s.capture[x.owner] = s.capture := by simp
      by_cases h : (x.actionSet m).event = true <;> simp only [hm, h, if_true, and_true, and_false, if_false,
        List.append_nil, Bool.false_eq_true, ite_self, State.posted_nil, hs] <;> rfl
    · rw [if_neg hm, if_neg hm, State.takeCapture_eq]
      have hc : ∀ (f g e : PortId → List Event) (v : Vector CaptureState 3), (∀ q, f q ++ g q = e q) →
          ({ (s.posted f).posted g with capture := v } : State) = { s.posted e with capture := v } := by
        intro f g e v h
        rw [State.posted_posted, funext h]
      refine hc _ _ _ _ fun q => ?_
      by_cases hq : q = x.owner
      · by_cases h : (x.actionSet m).event = true <;>
          simp [hq, h, -Fin.getElem_fin] <;> rfl
      · simp only [hq, if_false, false_and, List.append_nil]
  have ht : s.takeActions (z, m) = ((s.actEvent z x m).actCapture z x m).actLink x m := by
    simp only [State.takeActions, hz]
  rw [ht, hl, ha]

/-- The frame of a step: the zones after it, and beside them only the rings, the queues and the lines can change. -/
theorem State.zoneStep_frame (s : State) (c : ChanId) :
    s.zoneStep c = { s with
      zones := mapRows (slotMoved c (s.channels[c]).modulus (s.channels[c]).count) s.zones
      capture := (s.zoneStep c).capture, queues := (s.zoneStep c).queues, lines := (s.zoneStep c).lines } := by
  unfold State.zoneStep
  dsimp only
  rw [State.takeActions_foldl_frame]
  rfl

end Sys2Proof.Machine
end

