-- ==== Sys2Proof/Tests/Slice0.lean ====
section
/-! SUPPORT. Tests of the model: ill-formed commands, the worked examples of the spec, one step for each command, and for
every statement with hypotheses a state and operands that meet them. -/

namespace Sys2Proof.Tests

open Sys2Proof.Machine

-- One theorem at a time: the kernel evaluations below would otherwise each hold a thread while they wait.
set_option Elab.async false

/-! ## Commands that are not well formed -/

theorem test_wellFormed_refuses_short_body : WellFormed (.crcFailure 0 [1, 2, 3] 0) = false := by decide
theorem test_wellFormed_refuses_matching_crc :
    WellFormed (.crcFailure 0 [0, 1, 2, 3] (frameCrc [0, 1, 2, 3])) = false := by decide +kernel
theorem test_wellFormed_refuses_accepted_length : WellFormed (.framingError 1 40) = false := by decide
theorem test_wellFormed_refuses_listed_kind :
    WellFormed (.unknownRequestKind ⟨0, 1, 1, 4⟩ 0x0703) = false := by decide
theorem test_wellFormed_refuses_unknown_of_41_bytes :
    WellFormed (.unknownRequestKind ⟨0, 1, 1, 41⟩ 0x0900) = false := by decide
theorem test_wellFormed_refuses_request_of_3_bytes : WellFormed (.nop ⟨0, 1, 1, 3⟩) = false := by decide
theorem test_wellFormed_accepts :
    WellFormed (.nop ⟨0, 1, 1, 4⟩) = true ∧ WellFormed (.framingError 1 41) = true ∧
      WellFormed (.crcFailure 0 [0, 1, 2, 3] 0) = true := by decide +kernel

/-! ## A hub in use -/

/-- A response to put in a cache or a list. -/
def someResponse (tag : Byte) : Response := ⟨tag, .ok, false, 0x0703, .none⟩

/-- A counting channel. -/
def counter (mode : ChanMode) (modulus : Nat) (count turns : Int) : Channel :=
  { mode := mode, modulus := modulus, invert := false, gateUse := false, indexMark := true, state := .counting,
    count := count, turns := turns, referenced := true, wrapped := false, homing := false, mark := none,
    faultCount := 3, levels := ⟨true, false, false, false⟩ }

/-- A zone with an event on both transitions, a capture of CH0 on entry and no link. -/
def window (owner : PortId) (c : ChanId) (low high : Int) (state : ZoneState) : Zone :=
  { owner := owner, channel := c, low := low, high := high, hysteresis := 0, armed := state != .idle, state := state,
    onEnter := ⟨true, 1, false⟩, onExit := ⟨true, 0, false⟩, link := none, entryCount := 0 }

/-- M0 and M1 are OPEN with the epochs 1 and 2. M0 holds CH0 to CH3 and OUT0 to OUT2, in PULSE, FOLLOW and DIRECT; M1 holds
CH4. CH0 is in QUAD with modulus 1,000 at 999, CH1 in EVENT_UP, CH2 in EVENT_DIR, CH3 in QUAD and in FAULT; CH5 is held by
nobody. Zone 0 of M0 on CH0 triggers OUT0, zone 1 of M0 on CH1 is disarmed, zone 2 of M1 is on CH0. M0 has an event and a
capture record, and subscribes to rises of CAP0. -/
def hub : State :=
  { State.reset with
    timestamp := 70000
    channels := #v[counter .quad 1000 999 4, counter .eventUp 0 2147483647 0, counter .eventDir 0 0 0,
      { counter .quad 0 5 0 with state := .fault }, counter .quad 10 0 0, counter .quad 0 0 0,
      Channel.atReset ⟨false, false, false, false⟩, Channel.atReset ⟨false, false, false, false⟩]
    zones := ((State.reset.zones.set 0 (some { window 0 0 0 9 .outside with
        onEnter := ⟨true, 1, true⟩, link := some ⟨0, true⟩ })).set 1 (some (window 0 1 0 0 .idle))).set 2
      (some (window 1 0 500 600 .outside))
    capture := State.reset.capture.set 0
      { CaptureState.fresh with
        ring := [⟨0, .request, 9, 1, [⟨0, .counting, 1, 0, true⟩]⟩], seqCounter := 1
        subs := #v[some ⟨.rising, 1⟩, none] }
    queues := State.reset.queues.set 0 { EventQueue.fresh with records := [⟨.homed 0, 1⟩], attn := true }
    claims := #v[some ⟨0, 1⟩, some ⟨0, 1⟩, some ⟨0, 1⟩, some ⟨0, 1⟩, some ⟨1, 2⟩, none, none, none,
      some ⟨0, 1⟩, some ⟨0, 1⟩, some ⟨0, 1⟩, none, none, none]
    lines := #v[(({ OutLine.defaults false with mode := .pulse } : OutLine).driven .inactive),
      (({ OutLine.defaults true with mode := .follow } : OutLine).driven .inactive),
      (OutLine.defaults false).driven .inactive, OutLine.defaults true, OutLine.defaults false, OutLine.defaults false]
    sessions := #v[⟨true, 1, some 100, .running 1000000, .none⟩, ⟨true, 2, some 1, .running 0, .closed⟩,
      ⟨false, 255, some 1, .notRunning, .timeout⟩] }

/-- The header of a request of M0, with its tag 7 and its epoch. -/
def m0 (k : Kind) : Head := ⟨0, 7, 1, k.bodyLen⟩
/-- The header of a request of M1. -/
def m1 (k : Kind) : Head := ⟨1, 7, 2, k.bodyLen⟩
/-- The header of a request of M2, whose session is CLOSED. -/
def m2 (k : Kind) : Head := ⟨2, 7, 0, k.bodyLen⟩

/-- A command completes, with something true of the state it leaves. -/
def leaves (c : Instr) (s : State) (check : State → Bool) : Bool :=
  match exec c s with
  | .next t => check t
  | .fault _ => false
  | .refused _ => false

/-- What a port is sending: the status and the results. -/
def sent (s : State) (p : PortId) : Option (Status × Results) := (s.ports[p]).sending.map fun r => (r.status, r.results)

/-- The events that a session's queue holds. -/
def events (s : State) (p : PortId) : List Event := (s.queues[p]).records.map (·.event)

/-! ## Formats (chapter 10) -/

/-- The check value of R180. -/
theorem test_crc : crc16 [0x31, 0x32, 0x33, 0x34, 0x35, 0x36, 0x37, 0x38, 0x39] = 0x29B1 := by decide +kernel

/-- The request of 10.2.1: M1, epoch 1, EVT_READ(8), tag 17. -/
theorem test_decode_evtRead : decodeRequest 1 [0x11, 0x01, 0x05, 0x01, 0x08] = .evtRead ⟨1, 17, 1, 5⟩ 8 := by
  decide +kernel

/-- One body written out from the layouts of R181 for each other shape of parameters. -/
theorem test_decode_chanConfig :
    decodeRequest 0 [7, 1, 0x01, 0x01, 2, 1, 0x00, 0x00, 0x03, 0xE8, 0, 1, 0] =
      .chanConfig ⟨0, 7, 1, 13⟩ 2 1 1000 0 1 0 := by decide +kernel
theorem test_decode_zoneCreate :
    decodeRequest 0 [7, 1, 0x03, 0x01, 3, 0xFF, 0xFF, 0xFF, 0xFF, 0x00, 0x00, 0x07, 0x9E, 0x00, 0x14, 1, 9, 0, 0, 2, 1, 5,
      1] = .zoneCreate ⟨0, 7, 1, 23⟩ ⟨3, 0xFFFFFFFF, 1950, 20, 1, 9, 0, 0, 2, 1, 5, 1⟩ := by decide +kernel
theorem test_decode_outMode :
    decodeRequest 0 [7, 1, 0x06, 0x04, 5, 2, 1, 0x03, 0xE8, 1] = .outMode ⟨0, 7, 1, 10⟩ 5 2 1 1000 1 := by decide +kernel
theorem test_decode_unknown : decodeRequest 2 [7, 1, 0x09, 0x01] = .unknownRequestKind ⟨2, 7, 1, 4⟩ 0x0901 := by
  decide +kernel

/-- The response of 10.5.1. -/
theorem test_response_body :
    (⟨18, .ok, false, 0x0501, .events [⟨.zoneEnter 0 1000 15, 70000⟩, ⟨.claimFreed 1, 70250⟩] 0⟩ : Response).body =
      [0x12, 0x00, 0x00, 0x05, 0x01, 0x02, 0x00,
       0x01, 0x07, 0x00, 0x00, 0x01, 0x11, 0x70, 0x00, 0x00, 0x03, 0xE8, 0x00, 0x0F,
       0x0B, 0x01, 0x01, 0x00, 0x01, 0x12, 0x6A, 0x00, 0x00, 0x00, 0x00, 0x00, 0x00] := by decide +kernel

/-- IDENT of M0: the part code 6208 is 0x18 0x40 (R182, R183). -/
theorem test_ident_body :
    (⟨5, .ok, false, 0x0803, .ident 0⟩ : Response).body =
      [5, 0, 0, 0x08, 0x03, 0x18, 0x40, 1, 0, 8, 6, 32, 4, 16, 3] := by decide +kernel

/-! ## Events on the pins and timers -/

/-- The straps decide the pins of the unclaimed lines and the inputs are taken as they stand (R26, R119). -/
theorem test_powerOnReset :
    leaves (.powerOnReset ⟨1, 0, 0, 0, 2, 1, 4⟩) hub (fun t =>
      (t.lines[0]).pin && !(t.lines[1]).pin && (t.channels[0]).levels.a && t.capLevels[1] && (t.ports[2]).lrst &&
        t.timestamp == 0 && (t.channels[0]).mode == .off) = true := by decide +kernel

/-- 1.3.1: from 999 of 1,000 with (A, B) = (1, 0), a rise of B gives 0 and one more turn. -/
theorem test_abPairTransition_wraps :
    leaves (.abPairTransition 0 .bOnly) hub (fun t =>
      (t.channels[0]).count == 0 && (t.channels[0]).turns == 5 && (t.channels[0]).levels == ⟨true, true, false, false⟩)
      = true := by decide +kernel

/-- The entry of zone 0 at that step: its event, the notice of its capture in M0's queue, its pulse of 1,000 µs (R46). -/
theorem test_abPairTransition_enters :
    leaves (.abPairTransition 0 .bOnly) hub (fun t =>
      events t 0 == [.homed 0, .zoneEnter 0 0 5, .captureReady 1] && (t.lines[0]).timer == some 1000 &&
        (t.lines[0]).pin && (t.zones[0]).any (fun z => z.state == .inside && z.entryCount == 1)) = true := by
  decide +kernel

/-- An index edge marks the position for the holder (R15). -/
theorem test_indexEdge :
    leaves (.indexEdge 0) hub (fun t =>
      (t.channels[0]).mark == some ⟨999, 4, 70000⟩ && events t 0 == [.homed 0, .indexMark 0 999 4] && events t 1 == [])
      = true := by decide +kernel

/-- An index edge with homing armed zeroes the count, posts HOMED to both open sessions and resyncs zone 0 (R16). -/
theorem test_indexEdge_homes :
    leaves (.indexEdge 0) (hub.setChannel 0 { hub.channels[0] with homing := true }) (fun t =>
      (t.channels[0]).count == 0 && (t.channels[0]).turns == 0 &&
        events t 0 == [.homed 0, .indexMark 0 999 4, .homed 0, .zoneResync 0 .inside] && events t 1 == [.homed 0])
      = true := by decide +kernel

/-- With gate_use a fall of G holds a counting channel (R12). -/
theorem test_gateChange :
    leaves (.gateChange 0)
      (hub.setChannel 0 { hub.channels[0] with gateUse := true, levels := ⟨true, false, false, true⟩ })
      (fun t => (t.channels[0]).state == .held && !(t.channels[0]).levels.g) = true := by decide +kernel

/-- A rise of CAP0 gives M0 a record with cause LINE0 and the next number (R76, R77). -/
theorem test_captureLineEdge :
    leaves (.captureLineEdge 0) hub (fun t =>
      (t.capture[0]).ring[1]? == some ⟨1, .line 0, 70000, 1, [⟨0, .counting, 999, 4, true⟩]⟩ &&
        events t 0 == [.homed 0, .captureReady 1] && (t.capture[1]).ring.length == 0) = true := by decide +kernel

/-- LRST_n tears M0's session down with the cause PORT_RESET, and its lines fall to safe (R154, R148). -/
theorem test_lrstNAsserted :
    leaves (.lrstNAsserted 0) hub (fun t =>
      !(t.sessions[0]).isOpen && (t.sessions[0]).cause == .portReset && (t.lines[1]).pin && t.claims[8] == none &&
        t.zones[0] == none && events t 0 == [] &&
        events t 1 == [.claimFreed 0, .claimFreed 1, .claimFreed 2, .claimFreed 3, .claimFreed 8, .claimFreed 9,
          .claimFreed 10]) = true := by decide +kernel

theorem test_lrstNReleased :
    leaves (.lrstNReleased 0) (hub.setPort 0 { hub.ports[0] with lrst := true }) (fun t => !(t.ports[0]).lrst) = true := by
  decide +kernel

/-- The bytes after the sync byte of a failed frame hold no second frame here: one CRC error, and HUNT (R160). -/
theorem test_crcFailure :
    leaves (.crcFailure 0 [0, 1, 2, 3] 0) hub (fun t =>
      (t.ports[0]).crcErrors == 1 && (t.ports[0]).receiver == .hunt && (t.ports[0]).sending == none) = true := by
  decide +kernel

/-- A whole NOP frame inside the body of a failed frame is accepted in the same happening (R160). -/
theorem test_crcFailure_frame_inside :
    leaves (.crcFailure 0 (frameBytes [9, 1, 0x07, 0x03]) 0) hub (fun t =>
      (t.ports[0]).crcErrors == 1 && sent t 0 == some (.ok, .none)) = true := by decide +kernel

theorem test_framingError :
    leaves (.framingError 0 41) hub (fun t => (t.ports[0]).framingErrors == 1) = true := by decide +kernel
theorem test_frameGapTimeout :
    leaves (.frameGapTimeout 0) (hub.setPort 0 { hub.ports[0] with receiver := .length, gapTimer := some 0 })
      (fun t => (t.ports[0]).framingErrors == 1 && (t.ports[0]).receiver == .hunt) = true := by decide +kernel
theorem test_pulseTimerExpiry :
    leaves (.pulseTimerExpiry 0)
      (hub.setLine 0 (({ hub.lines[0] with timer := some 0, polarity := .activeLow } : OutLine).driven .active))
      (fun t => (t.lines[0]).timer == none && (t.lines[0]).drive == .inactive && (t.lines[0]).pin) = true := by
  decide +kernel
theorem test_silenceTimeout :
    leaves (.silenceTimeout 1) hub (fun t =>
      !(t.sessions[1]).isOpen && (t.sessions[1]).cause == .timeout && t.zones[2] == none && t.claims[4] == none &&
        events t 0 == [.homed 0, .claimFreed 4]) = true := by decide +kernel

/-- M1 waiting in an AWAIT with tag 3 whose timer is due. -/
def waits : State :=
  (hub.setPort 1 { hub.ports[1] with awaiting := some ⟨3, 1, 0⟩ }).setSession 1
    { hub.sessions[1] with timer := .suspended }

/-- An AWAIT that runs out is answered TIMEOUT and cached, and the silence timer runs again (R170). -/
theorem test_awaitTimeout :
    leaves (.awaitTimeout 1) waits (fun t =>
      sent t 1 == some (.timeout, .none) && (t.ports[1]).awaiting == none &&
        (t.ports[1]).cache.any (fun r => r.tag == 3) && (t.sessions[1]).timer == .running 10000) = true := by decide +kernel

/-- An event posted to M1 ends its AWAIT within the happening (R169). -/
theorem test_await_ends_by_store :
    leaves (.indexEdge 0) (waits.setChannel 0 { waits.channels[0] with homing := true }) (fun t =>
      sent t 1 == some (.ok, .depth 1) && (t.ports[1]).awaiting == none) = true := by decide +kernel
theorem test_awaitEndedByStore :
    leaves (.awaitEndedByStore 1) (waits.setQueue 1 { waits.queues[1] with records := [⟨.homed 0, 1⟩, ⟨.homed 1, 2⟩] })
      (fun t => sent t 1 == some (.ok, .depth 2)) = true := by decide +kernel
theorem test_responseSent :
    leaves (.responseSent 0)
      (hub.setPort 0 { hub.ports[0] with sending := some (someResponse 1), waiting := [someResponse 2, someResponse 3] })
      (fun t => (t.ports[0]).sending == some (someResponse 2) && (t.ports[0]).waiting == [someResponse 3]) = true := by
  decide +kernel

/-- The timestamp wraps (R29) and a running pulse timer has one increment less to go (R35). -/
theorem test_timestampIncrement :
    leaves .timestampIncrement ((hub.setTimestamp 0xFFFFFFFF).setLine 0 { hub.lines[0] with timer := some 7 })
      (fun t => t.timestamp == 0 && (t.lines[0]).timer == some 6 && (t.sessions[0]).timer == .running 999999) = true := by
  decide +kernel

/-- The sync byte begins a frame; the last CRC byte of the frame of 10.2.1 executes it (R158, R159). -/
theorem test_frameByteTaken_sync :
    leaves (.frameByteTaken 0 0xA5) hub (fun t =>
      (t.ports[0]).receiver == .length && (t.ports[0]).gapTimer == some 5000) = true := by decide +kernel
theorem test_frameByteTaken_last :
    leaves (.frameByteTaken 0 ((frameCrc [7, 1, 0x07, 0x03]).extractLsb' 0 8))
      (hub.setPort 0 { hub.ports[0] with
        receiver := .check [7, 1, 0x07, 0x03] (some ((frameCrc [7, 1, 0x07, 0x03]).extractLsb' 8 8)), gapTimer := some 1 })
      (fun t => sent t 0 == some (.ok, .none) && (t.ports[0]).receiver == .hunt) = true := by decide +kernel

/-- An unknown kind is answered BAD_REQUEST with its code echoed (R166). -/
theorem test_unknownRequestKind :
    leaves (.unknownRequestKind ⟨0, 7, 1, 4⟩ 0x0901) hub (fun t =>
      (t.ports[0]).sending == some ⟨7, .badRequest, false, 0x0901, .none⟩) = true := by decide +kernel

/-! ## Requests -/

/-- A new modulus under no zone zeroes the channel (R21). -/
theorem test_chanConfig :
    leaves (.chanConfig (m0 .chanConfig) 2 1 100 0 0 0) hub (fun t =>
      (t.channels[2]).mode == .quad && (t.channels[2]).modulus == 100 && !(t.channels[2]).referenced &&
        (t.channels[2]).faultCount == 3 && events t 1 == [.channelReconfigured 2] && sent t 0 == some (.ok, .none))
      = true := by decide +kernel
theorem test_chanConfig_in_use :
    leaves (.chanConfig (m0 .chanConfig) 0 1 100 0 0 0) hub (fun t =>
      sent t 0 == some (.inUse, .none) && t.channels[0] == hub.channels[0]) = true := by decide +kernel
theorem test_chanPreset :
    leaves (.chanPreset (m0 .chanPreset) 0 5 0xFFFF) hub (fun t =>
      (t.channels[0]).count == 5 && (t.channels[0]).turns == -1 &&
        events t 0 == [.homed 0, .zoneResync 0 .inside] && events t 1 == [.channelReconfigured 0]) = true := by
  decide +kernel
theorem test_chanPreset_out_of_range :
    leaves (.chanPreset (m0 .chanPreset) 0 1000 0) hub (fun t => sent t 0 == some (.badArg, .none)) = true := by
  decide +kernel
theorem test_chanHome :
    leaves (.chanHome (m0 .chanHome) 0 0) hub (fun t => (t.channels[0]).homing && sent t 0 == some (.ok, .none))
      = true := by decide +kernel

/-- R186: on a channel in FAULT a cancel byte of 2 is answered CHANNEL_FAULT. -/
theorem test_chanHome_fault :
    leaves (.chanHome (m0 .chanHome) 3 2) hub (fun t => sent t 0 == some (.channelFault, .none)) = true := by decide +kernel
theorem test_chanClearFault :
    leaves (.chanClearFault (m0 .chanClearFault) 3) hub (fun t =>
      (t.channels[3]).state == .counting && (t.channels[3]).faultCount == 3 &&
        events t 0 == [.homed 0, .channelRecovered 3] && events t 1 == [.channelRecovered 3]) = true := by decide +kernel
theorem test_chanRead :
    leaves (.chanRead (m1 .chanRead) 0) hub (fun t =>
      sent t 1 == some (.ok, .channelRecord 0 hub.channels[0] 70000 (some 0))) = true := by decide +kernel
theorem test_timeRead :
    leaves (.timeRead (m1 .timeRead)) hub (fun t => sent t 1 == some (.ok, .times 70000 70000)) = true := by decide +kernel

/-- 3.2.1: on M = 3,600 the window 3,500 to 100 with h = 20 is valid, and inside at 0. -/
theorem test_zoneCreate :
    leaves (.zoneCreate (m1 .zoneCreate) ⟨4, 3500, 100, 20, 1, 0, 0, 1, 0, 0, 0xFF, 9⟩)
      (hub.setChannel 4 (counter .quad 3600 0 0)) (fun t =>
        sent t 1 == some (.ok, .zoneCreated 3 .inside) &&
          (t.zones[3]).any (fun z => z.owner == 1 && z.low == 3500 && z.high == 100 && z.hysteresis == 20 && z.armed))
      = true := by decide +kernel
theorem test_zoneCreate_not_holder :
    leaves (.zoneCreate (m1 .zoneCreate) ⟨4, 3, 4, 0, 1, 0, 0, 1, 0, 0, 0, 1⟩) hub (fun t =>
      sent t 1 == some (.notHolder, .none) && t.zones == hub.zones) = true := by decide +kernel
theorem test_zoneArm :
    leaves (.zoneArm (m0 .zoneArm) 1) hub (fun t => sent t 0 == some (.ok, .zoneState .outside)) = true := by
  decide +kernel
theorem test_zoneArm_not_owner :
    leaves (.zoneArm (m1 .zoneArm) 1) hub (fun t => sent t 1 == some (.notOwner, .none)) = true := by decide +kernel
theorem test_zoneDisarm :
    leaves (.zoneDisarm (m1 .zoneDisarm) 2) hub (fun t =>
      (t.zones[2]).any (fun z => z.state == .idle && !z.armed) && sent t 1 == some (.ok, .none)) = true := by decide +kernel
theorem test_zoneDelete :
    leaves (.zoneDelete (m0 .zoneDelete) 0) hub (fun t => t.zones[0] == none && sent t 0 == some (.ok, .none)) = true := by
  decide +kernel
theorem test_zoneRead_no_such_zone :
    leaves (.zoneRead (m0 .zoneRead) 32) hub (fun t => sent t 0 == some (.noSuchZone, .none)) = true := by decide +kernel
theorem test_zoneList :
    leaves (.zoneList (m0 .zoneList)) hub (fun t =>
      sent t 0 == some (.ok, .zoneList [(0, 0, .outside), (1, 0, .idle), (2, 1, .outside)])) = true := by decide +kernel
theorem test_capture :
    leaves (.capture (m0 .capture) 0x09) hub (fun t =>
      (t.capture[0]).ring[1]? == some ⟨1, .request, 70000, 9, [⟨0, .counting, 999, 4, true⟩, ⟨3, .fault, 5, 0, true⟩]⟩ &&
        sent t 0 == some (.ok, .captureSeq 1)) = true := by decide +kernel
theorem test_capSubscribe :
    leaves (.capSubscribe (m0 .capSubscribe) 1 3 0x80) hub (fun t =>
      (t.capture[0]).subs == #v[some ⟨.rising, 1⟩, some ⟨.both, 0x80⟩]) = true := by decide +kernel
theorem test_capPolicy :
    leaves (.capPolicy (m0 .capPolicy) 1) hub (fun t => (t.capture[0]).policy == .keepNewest) = true := by decide +kernel
theorem test_capFetch :
    leaves (.capFetch (m0 .capFetch)) hub (fun t =>
      sent t 0 == some (.ok, .captureRecord ⟨0, .request, 9, 1, [⟨0, .counting, 1, 0, true⟩]⟩)) = true := by decide +kernel
theorem test_capAck :
    leaves (.capAck (m0 .capAck) 0) hub (fun t => (t.capture[0]).ring == [] && sent t 0 == some (.ok, .recordsLeft 0))
      = true := by decide +kernel
theorem test_capAck_stale :
    leaves (.capAck (m0 .capAck) 1) hub (fun t => sent t 0 == some (.stale, .oldestSeq 0)) = true := by decide +kernel
theorem test_capStatus :
    leaves (.capStatus (m0 .capStatus)) (hub.setCapture 0 { hub.capture[0] with lost := 2, lossReported := true })
      (fun t => (t.capture[0]).lost == 0 && !(t.capture[0]).lossReported) = true := by decide +kernel

/-- A read that frees room stores the OVERFLOW record, whose depth it reports (R97, R98). -/
theorem test_evtRead :
    leaves (.evtRead (m0 .evtRead) 8) (hub.setQueue 0 { hub.queues[0] with overflow := 3 }) (fun t =>
      events t 0 == [.overflow 3] && (t.queues[0]).overflow == 0 && (t.queues[0]).attn &&
        sent t 0 == some (.ok, .events [⟨.homed 0, 1⟩] 1)) = true := by decide +kernel
theorem test_evtAttn :
    leaves (.evtAttn (m0 .evtAttn) 0) hub (fun t =>
      !(t.queues[0]).attn && sent t 0 == some (.ok, .attention false 1)) = true := by decide +kernel
theorem test_claim :
    leaves (.claim (m1 .claim) 11) hub (fun t =>
      t.claims[11] == some ⟨1, 70000⟩ && (t.lines[3]).drive == .inactive && !(t.lines[3]).pin &&
        sent t 1 == some (.ok, .claimed 11 70000)) = true := by decide +kernel
theorem test_claim_held :
    leaves (.claim (m1 .claim) 0) hub (fun t => sent t 1 == some (.held, .holder 0)) = true := by decide +kernel
theorem test_release :
    leaves (.release (m0 .release) 9) hub (fun t =>
      t.claims[9] == none && (t.lines[1]).pin && (t.lines[1]).mode == .direct && events t 1 == [.claimFreed 9] &&
        events t 0 == [.homed 0]) = true := by decide +kernel
theorem test_release_in_use :
    leaves (.release (m0 .release) 8) hub (fun t => sent t 0 == some (.inUse, .none)) = true := by decide +kernel
theorem test_claimList :
    leaves (.claimList (m1 .claimList)) hub (fun t => sent t 1 == some (.ok, .claimList hub.claims)) = true := by
  decide +kernel
theorem test_outMode :
    leaves (.outMode (m0 .outMode) 2 0 1 5 1) hub (fun t =>
      (t.lines[2]).pin && (t.lines[2]).width == 5 && sent t 0 == some (.ok, .drive .inactive)) = true := by decide +kernel
theorem test_outSet :
    leaves (.outSet (m0 .outSet) 2 1) hub (fun t => (t.lines[2]).pin && (t.lines[2]).drive == .active) = true := by
  decide +kernel

/-- R186: on a FOLLOW line a level of 7 is answered BAD_ARG. -/
theorem test_outSet_bad_level :
    leaves (.outSet (m0 .outSet) 1 7) hub (fun t => sent t 0 == some (.badArg, .none)) = true := by decide +kernel
theorem test_outRead :
    leaves (.outRead (m1 .outRead) 0) hub (fun t => sent t 1 == some (.ok, .outRecord (some 0) hub.lines[0])) = true := by
  decide +kernel

/-- The epoch after 255 is 1, and the answer carries the cause that the last session ended by (R140, R142). -/
theorem test_openSession :
    leaves (.openSession (m2 .openSession) 2) hub (fun t =>
      (t.sessions[2]).isOpen && (t.sessions[2]).epoch == 1 && (t.sessions[2]).timer == .running 20000 &&
        sent t 2 == some (.ok, .opened 1 .timeout)) = true := by decide +kernel
theorem test_openSession_already :
    leaves (.openSession (m0 .openSession) 2) hub (fun t => sent t 0 == some (.alreadyOpen, .alreadyOpen 1 (some 100)))
      = true := by decide +kernel
theorem test_closeSession :
    leaves (.closeSession (m1 .closeSession)) hub (fun t =>
      !(t.sessions[1]).isOpen && (t.sessions[1]).cause == .closed && (t.ports[1]).cache == none &&
        sent t 1 == some (.ok, .none)) = true := by decide +kernel
theorem test_nop :
    leaves (.nop (m1 .nop)) hub (fun t => (t.sessions[1]).timer == .running 10000 && sent t 1 == some (.ok, .none)) = true := by
  decide +kernel
theorem test_nop_closed :
    leaves (.nop (m2 .nop)) hub (fun t => sent t 2 == some (.noSession, .closeCause .timeout)) = true := by decide +kernel

/-- M1 holds CH4, so HUB_RESET of M0 is refused and names it (R150). -/
theorem test_hubReset_held :
    leaves (.hubReset (m0 .hubReset)) hub (fun t => sent t 0 == some (.held, .heldResource 4 1)) = true := by decide +kernel
theorem test_hubReset :
    leaves (.hubReset (m0 .hubReset)) (hub.setClaim 4 none) (fun t =>
      t.timestamp == 0 && (t.sessions[0]).isOpen && !(t.sessions[1]).isOpen && (t.sessions[1]).cause == .hubReset &&
        (t.channels[0]).mode == .off && (t.channels[0]).levels.a && t.zones[0] == none && t.claims[0] == none &&
        (t.lines[1]).pin && events t 0 == []) = true := by decide +kernel
theorem test_await :
    leaves (.await (m1 .await) 3) hub (fun t =>
      (t.ports[1]).awaiting == some ⟨7, 3, 30000⟩ && (t.sessions[1]).timer == .suspended && sent t 1 == none) = true := by
  decide +kernel
theorem test_await_at_once :
    leaves (.await (m0 .await) 3) hub (fun t => sent t 0 == some (.ok, .depth 1) && (t.ports[0]).awaiting == none)
      = true := by decide +kernel
theorem test_cancel :
    leaves (.cancel (m1 .cancel)) waits (fun t =>
      sent t 1 == some (.cancelled, .none) && (t.ports[1]).waiting == [⟨7, .ok, false, 0x0802, .none⟩]) = true := by
  decide +kernel
theorem test_ident :
    leaves (.ident (m2 .ident)) hub (fun t => sent t 2 == some (.ok, .ident 2)) = true := by decide +kernel
theorem test_portStatus :
    leaves (.portStatus (m2 .portStatus)) (hub.setPort 2 { hub.ports[2] with crcErrors := 4 }) (fun t =>
      sent t 2 == some (.ok, .portStatus false 255 .timeout 4 0 0 70000 none) && (t.ports[2]).crcErrors == 0)
      = true := by decide +kernel

/-! ## Witnesses: states and operands that meet the hypotheses of the statements

Each theorem has the name of its statement. Where a statement has several clauses over one operand, the theorem meets each
clause, at the ends of its ranges. -/

theorem witness_StepRunsTheFrontCommand :
    (hub.setPending [.nop (m0 .nop)]).pending = .nop (m0 .nop) :: [] ∧ hub.pending = [] := by decide +kernel

/-- The laws of every StepKeeps statement, in a hub in use whose step has a next state. -/
theorem witness_StepKeeps :
    HubLawful (hub.setPending [.abPairTransition 0 .bOnly]) ∧ ResponsesFit (hub.setPending [.abPairTransition 0 .bOnly]) := by
  and_intros <;> decide +kernel
theorem witness_StepKeeps_step : ∃ t, step (hub.setPending [.abPairTransition 0 .bOnly]) = .next t := ⟨_, rfl⟩

theorem witness_QuadCountsByPhase :
    (hub.channels[0]).Lawful ∧ (hub.channels[0]).mode = .quad ∧ (hub.channels[0]).state = .counting ∧
      PairChange.bOnly ≠ .both := by decide +kernel

/-- The levels of CH1 and CH2 with A low: the next change of A is a rise. -/
def aLow (x : Channel) : Channel := { x with levels := ⟨false, true, false, false⟩ }

theorem witness_EventDirCountsRisesOfA :
    ((hub.channels[2]).Lawful ∧ (hub.channels[2]).mode = .eventDir ∧ (hub.channels[2]).state = .counting ∧
      (hub.channels[2]).levels.a = true) ∧
    ((aLow hub.channels[2]).Lawful ∧ (aLow hub.channels[2]).mode = .eventDir ∧
      (aLow hub.channels[2]).state = .counting ∧ (aLow hub.channels[2]).levels.a = false) := by and_intros <;> decide +kernel
theorem witness_EventUpCountsRisesOfA :
    ((hub.channels[1]).Lawful ∧ (hub.channels[1]).mode = .eventUp ∧ (hub.channels[1]).state = .counting ∧
      (hub.channels[1]).levels.a = true) ∧
    ((aLow hub.channels[1]).Lawful ∧ (aLow hub.channels[1]).mode = .eventUp ∧
      (aLow hub.channels[1]).state = .counting ∧ (aLow hub.channels[1]).levels.a = false) := by and_intros <;> decide +kernel
theorem witness_IllegalTransitionFaults :
    (hub.channels[0]).mode = .quad ∧ (hub.channels[0]).state = .counting := by decide +kernel
theorem witness_SuspendedChannelOnlyTracks :
    (hub.channels[3]).state ≠ .counting ∧ (hub.channels[7]).state ≠ .counting := by decide +kernel
theorem witness_IndexEdgeMarksThenHomes :
    (hub.channels[0]).state = .counting ∧ (hub.channels[0]).levels.i = false := by decide +kernel

/-- A channel number of 8; CH7 not held; CH0 held with the modulus 1 and with 16,777,217; CH0 with another modulus under its
zones; CH2 accepted with mode OFF, and with the modulus 16,777,216. -/
theorem witness_ChanConfigSetsTheChannel :
    Admitted hub (m0 .chanConfig) .chanConfig ∧ (8 : Byte).toNat = 8 ∧ hub.holder (chanRes 7) ≠ some 0 ∧
      hub.holder (chanRes 0) = some 0 ∧ (1 : Word).toNat = 1 ∧ ¬ (16777217 : Word).toNat ≤ 16777216 ∧
      (∃ y ∈ hub.zones[0], y.channel = 0) ∧ (16777216 : Word).toNat ≠ (hub.channels[0]).modulus ∧
      (16777216 : Word).toNat ≤ 16777216 ∧ hub.holder (chanRes 2) = some 0 ∧
      (¬ ∃ z : ZoneId, ∃ y ∈ hub.zones[z], y.channel = 2) ∧ chanModeOf 0 = some .off ∧ chanModeOf 3 = some .eventUp := by
  decide +kernel
theorem witness_ChanPresetLoadsThePosition :
    Admitted hub (m0 .chanPreset) .chanPreset ∧ hub.holder (chanRes 0) = some 0 ∧ (hub.channels[0]).modulus = 1000 ∧
      (0 : Int) ≤ (999 : Word).toInt ∧ (999 : Word).toInt < 1000 ∧ ¬ (1000 : Word).toInt < 1000 ∧
      (hub.channels[1]).modulus = 0 ∧ hub.holder (chanRes 1) = some 0 := by decide +kernel
theorem witness_ChanHomeArmsAndCancels :
    Admitted hub (m0 .chanHome) .chanHome ∧ hub.holder (chanRes 0) = some 0 ∧ (hub.channels[0]).state = .counting ∧
      hub.holder (chanRes 3) = some 0 ∧ (hub.channels[3]).state = .fault := by decide +kernel
theorem witness_ChanClearFaultRecovers :
    Admitted hub (m0 .chanClearFault) .chanClearFault ∧ hub.holder (chanRes 3) = some 0 ∧
      (hub.channels[3]).state = .fault ∧ (hub.channels[0]).state ≠ .fault := by decide +kernel
theorem witness_ReadingRequestsReport :
    Admitted hub (m0 .chanRead) .chanRead ∧ Admitted hub (m0 .timeRead) .timeRead ∧
      Admitted hub (m0 .zoneRead) .zoneRead ∧ (hub.zones[0]).isSome = true ∧ hub.zones[31] = none ∧
      Admitted hub (m0 .zoneList) .zoneList ∧ Admitted hub (m0 .capFetch) .capFetch ∧
      Admitted hub (m0 .claimList) .claimList ∧ Admitted hub (m0 .outRead) .outRead ∧ Admitted hub (m2 .ident) .ident := by
  and_intros <;> decide +kernel
theorem witness_NopRestartsTheSilenceTimer : Admitted hub (m0 .nop) .nop := by decide +kernel

/-- A hub one step further: CH0 at 0, where zone 0 is to enter, zone 2 alone INSIDE and beyond its bounds. -/
def stepping : State :=
  (hub.setChannel 0 { hub.channels[0] with count := 0, turns := 5 }).setZone 2 (some (window 1 0 500 600 .inside))

theorem witness_StepMovesZones :
    (stepping.channels[0]).Lawful ∧ OwnershipLawful stepping ∧
      (∃ y ∈ stepping.zones[0], y.channel = 0 ∧ y.state = .outside ∧ y.low ≤ 0 ∧ 0 ≤ y.high) ∧
      (∃ y ∈ stepping.zones[2], y.channel = 0 ∧ y.state = .inside ∧ 0 < y.low) ∧
      (∃ y ∈ stepping.zones[1], y.channel ≠ 0) ∧ stepping.zones[3] = none := by and_intros <;> decide +kernel

/-- CH0 at 550 with zone 2 of M1 alone on it, which asks for no capture. -/
def quiet : State :=
  ((hub.setChannel 0 { hub.channels[0] with count := 550 }).setZone 0 none).setZone 2
    (some { window 1 0 500 600 .outside with onEnter := ⟨true, 0, false⟩ })

theorem witness_StepActsInZoneOrder :
    ∀ z : ZoneId, ∀ y ∈ quiet.zones[z], y.channel = 0 → y.onEnter.mask = 0 ∧ y.onExit.mask = 0 := by decide +kernel
/-- Zones 0 and 5 of M0 enter on one step with captures into a ring that holds three: the events of zone 0 with its
capture stand before those of zone 5, whose capture finds the ring full (R46, R49, R73, R93). -/
theorem test_step_orders_events_and_captures :
    (let old : CaptureRecord := ⟨0, .request, 9, 1, [⟨0, .counting, 1, 0, true⟩]⟩
     let s := (stepping.setZone 5 (some (window 0 0 0 0 .outside))).setCapture 0
      { hub.capture[0] with ring := [old, { old with seq := 1 }, { old with seq := 2 }], seqCounter := 3 }
     let t := s.zoneStep 0
     events t 0 == [.homed 0, .zoneEnter 0 0 5, .captureReady 3, .zoneEnter 5 0 5, .captureLost 1] &&
       events t 1 == [.zoneExit 2 0 5] && (t.capture[0]).ring.map (·.seq) == [0, 1, 2, 3]) = true := by decide +kernel
theorem witness_LoneTransitionTakesItsActions :
    OwnershipLawful (stepping.setZone 2 none) ∧
      (∃ y, (stepping.setZone 2 none).zones[0] = some y ∧ y.channel = 0 ∧ y.onStep 1000 0 = some .entry) ∧
      (∀ z' : ZoneId, ∀ y' ∈ (stepping.setZone 2 none).zones[z'], z' ≠ 0 → y'.channel = 0 →
        y'.onStep 1000 0 = none) := by
  refine ⟨by decide +kernel, ⟨_, rfl, rfl, rfl⟩, by decide +kernel⟩

/-- The table with every slot in use. -/
def full : State := hub.setZones (Vector.replicate 32 (some (window 1 0 500 600 .outside)))

theorem witness_ZoneCreateTakesTheLowestSlot :
    Admitted hub (m0 .zoneCreate) .zoneCreate ∧ hub.zones[3] = none ∧
      (∀ z' : ZoneId, z' < 3 → hub.zones[z'] ≠ none) ∧
      Admitted full (m0 .zoneCreate) .zoneCreate ∧ (∀ z : ZoneId, full.zones[z] ≠ none) := by decide +kernel
theorem witness_OwnersArmDisarmAndDelete :
    Admitted hub (m0 .zoneArm) .zoneArm ∧ Admitted hub (m0 .zoneDisarm) .zoneDisarm ∧
      Admitted hub (m0 .zoneDelete) .zoneDelete ∧ hub.zones[31] = none ∧ (hub.zones[2]).isSome = true ∧
      (∀ z : ZoneId, (32 : Byte).toNat ≠ z) := by decide +kernel
theorem witness_CaptureStoresOrIsFull : Admitted hub (m0 .capture) .capture := by decide +kernel
theorem witness_CapSubscribeReplacesTheSubscription :
    Admitted hub (m0 .capSubscribe) .capSubscribe ∧ edgeOf 1 = some .rising ∧ edgeOf 3 = some .both ∧
      (1 : Byte).toNat = (1 : CapId) ∧ 2 ≤ (2 : Byte).toNat ∧ 4 ≤ (4 : Byte).toNat := by decide +kernel
theorem witness_CapPolicySetsThePolicy : Admitted hub (m0 .capPolicy) .capPolicy := by decide +kernel
theorem witness_CapAckRemovesTheOldest : Admitted hub (m0 .capAck) .capAck := by decide +kernel
theorem witness_CapStatusReportsAndClearsLosses : Admitted hub (m0 .capStatus) .capStatus := by decide +kernel
theorem witness_EvtReadRemovesAndReportsOverflow :
    Admitted hub (m0 .evtRead) .evtRead ∧ (hub.queues[0]).records.length ≤ 16 := by decide +kernel
theorem witness_EvtAttnSetsTheEnable : Admitted hub (m0 .evtAttn) .evtAttn := by decide +kernel

/-- The resource ids 13 and 14; an entry of another session, of the requester, and a free one. -/
theorem witness_ClaimTakesAFreeEntry :
    Admitted hub (m0 .claim) .claim ∧ 14 ≤ (14 : Byte).toNat ∧ (13 : Byte).toNat = (13 : ResId) ∧
      hub.claims[13] = none ∧ (∃ x ∈ hub.claims[4], x.holder ≠ 0) ∧ (∃ x ∈ hub.claims[8], x.holder = 0) := by
  decide +kernel
theorem witness_ReleaseFreesTheEntry :
    Admitted hub (m0 .release) .release ∧ hub.holder 9 = some 0 ∧ hub.holder 13 ≠ some 0 ∧
      (∃ z : ZoneId, ∃ y ∈ hub.zones[z], ∃ l ∈ y.link, lineRes l.line = 8) ∧ hub.holder 8 = some 0 ∧
      (¬ ∃ z : ZoneId, ∃ y ∈ hub.zones[z], ∃ l ∈ y.link, lineRes l.line = 9) := by decide +kernel
theorem witness_OutModeConfiguresTheLine :
    Admitted hub (m0 .outMode) .outMode ∧ hub.holder (lineRes 0) = some 0 ∧ hub.holder (lineRes 5) ≠ some 0 := by
  decide +kernel
theorem witness_OutSetDrivesTheLevel :
    Admitted hub (m0 .outSet) .outSet ∧ hub.holder (lineRes 2) = some 0 ∧ (hub.lines[2]).mode = .direct ∧
      (hub.lines[1]).mode ≠ .direct := by decide +kernel
theorem witness_OpenStartsASession :
    Admitted hub (m2 .openSession) .openSession ∧ (hub.sessions[2]).isOpen = false ∧
      Admitted hub (m0 .openSession) .openSession ∧ (hub.sessions[0]).isOpen = true := by decide +kernel
theorem witness_CloseAndSilenceTearDown :
    Admitted hub (m0 .closeSession) .closeSession ∧ (hub.sessions[0]).isOpen = true ∧
      (hub.sessions[0]).timer ≠ .running 0 ∧ (hub.sessions[1]).isOpen = true ∧ (hub.sessions[1]).timer = .running 0 ∧
      (hub.sessions[2]).isOpen = false := by decide +kernel
theorem witness_HubResetResetsTheHub :
    Admitted hub (m0 .hubReset) .hubReset ∧ HubLawful hub ∧ hub.holder 4 = some 1 ∧
      Admitted (hub.setClaim 4 none) (m0 .hubReset) .hubReset ∧ HubLawful (hub.setClaim 4 none) ∧
      (∀ (r : ResId) (q : PortId), ¬ ((hub.setClaim 4 none).holder r = some q ∧ q ≠ 0)) := by and_intros <;> decide +kernel
theorem witness_AwaitWaitsOverAnEmptyQueue :
    Admitted hub (m0 .await) .await ∧ Admitted hub (m1 .await) .await ∧ (hub.queues[1]).records = [] := by decide +kernel
theorem witness_CancelEndsTheAwait :
    Admitted waits (m1 .cancel) .cancel ∧ (waits.ports[1]).awaiting ≠ none ∧ Admitted hub (m1 .cancel) .cancel ∧
      (hub.ports[1]).awaiting = none := by decide +kernel
theorem witness_PortStatusReportsAndClears :
    Admitted hub (m0 .portStatus) .portStatus ∧ Admitted hub (m2 .portStatus) .portStatus := by decide +kernel

/-- A port with three responses waiting, one with a cached tag, one EXECUTING, one whose session is CLOSED, one OPEN with
another epoch, a body too long, an unknown kind: each with the clauses before its own not applying. -/
def crowded : State :=
  (hub.setPort 0 { hub.ports[0] with waiting := [someResponse 1, someResponse 2, someResponse 3] }).setPort 1
    { hub.ports[1] with waiting := [someResponse 1, someResponse 2], cache := some (someResponse 7) }

theorem witness_FramesAreCheckedInOrder :
    ((Instr.nop (m0 .nop)).request?.map (·.2) = some (m0 .nop)) ∧ Kind.ofCode 0x0901 = none ∧
      (crowded.ports[0]).lrst = false ∧ 4 ≤ (m0 .nop).len ∧ (m0 .nop).len ≤ 40 ∧ 3 ≤ (crowded.ports[0]).waiting.length ∧
      (crowded.ports[1]).waiting.length ≤ 2 ∧ (∃ r ∈ (crowded.ports[1]).cache, r.tag = 7) ∧
      (waits.ports[1]).waiting.length ≤ 2 ∧ (waits.ports[1]).cache = none ∧ (waits.ports[1]).awaiting ≠ none ∧
      (hub.ports[2]).cache = none ∧ (hub.ports[2]).awaiting = none ∧ (hub.sessions[2]).isOpen = false ∧
      (hub.ports[0]).cache = none ∧ (hub.ports[0]).awaiting = none ∧ (hub.sessions[0]).isOpen = true ∧
      (hub.sessions[0]).epoch ≠ 0 := by decide +kernel
theorem witness_ReceiverTakesBytes :
    (hub.ports[0]).receiver.lawful = true ∧ (Receiver.body 4 [1, 2, 3]).lawful = true ∧
      (Receiver.check [1, 2, 3, 4] none).lawful = true ∧ (Receiver.check [1, 2, 3, 4] (some 5)).lawful = true ∧
      (Receiver.body 40 []).lawful = true := by decide +kernel
theorem witness_CrcFailureTakesItsBytesAgain :
    (hub.ports[0]).lrst = false ∧ 4 ≤ (frameBytes [9, 1, 0x07, 0x03]).length ∧
      (frameBytes [9, 1, 0x07, 0x03]).length ≤ 40 ∧ frameCrc (frameBytes [9, 1, 0x07, 0x03]) ≠ 0 := by decide +kernel
/-- A response to CHAN_READ with numbers at the ends of their ranges, and one to OUT_READ of a line in a pulse. -/
theorem witness_SentBytesKeepEveryField :
    (Event.zoneEnter 31 2147483647 (-32768)).inRange = true ∧ (Event.channelFault 7 (-2147483648)).inRange = true ∧
      (let r : Response := ⟨7, .ok, false, Kind.chanRead.code, .channelRecord 7 (counter .quad 16777216 (-2147483648) 32767)
        9 none⟩
       r.laidOut && r.results.inRange && r.body == r.body) = true ∧
      (let l : OutLine := { hub.lines[0] with timer := some 3 }
       let r : Response := ⟨7, .ok, false, Kind.outRead.code, .outRecord (some 0) l⟩
       let q : Response := ⟨7, .ok, false, Kind.outRead.code, .outRecord (some 0) { l with timer := some 4 }⟩
       r.laidOut && r.results.inRange && r.body == q.body && r.frame == q.frame) = true := by decide +kernel
theorem witness_RequestBodiesRoundTrip :
    (Instr.capAck (m0 .capAck) 0xFFFF).request? = some (.capAck, m0 .capAck) ∧ (m0 .capAck).len = Kind.capAck.bodyLen ∧
      encodeRequest (.capAck (m0 .capAck) 0xFFFF) = some [7, 1, 0x04, 0x05, 0xFF, 0xFF] ∧
      Kind.ofCode (bytesHalf 0x04 0x05) = some .capAck := by decide +kernel
theorem witness_FrameBytesRunTheRequest :
    (Instr.capAck (m0 .capAck) 0).request? = some (.capAck, m0 .capAck) ∧
      encodeRequest (.capAck (m0 .capAck) 0) = some [7, 1, 0x04, 0x05, 0, 0] ∧ (hub.ports[0]).lrst = false ∧
      (hub.ports[0]).receiver = .hunt := by decide +kernel
theorem witness_RequestsLeaveOtherMastersAlone :
    (Instr.closeSession (m0 .closeSession)).request? = some (.closeSession, m0 .closeSession) ∧
      Kind.closeSession ≠ .hubReset ∧ OwnershipLawful hub ∧ (∃ x ∈ hub.claims[4], x.holder ≠ 0) ∧
      (∃ y ∈ hub.zones[2], y.owner ≠ 0) ∧ (∃ x ∈ hub.claims[lineRes 1], x.holder ≠ 1) ∧ (hub.lines[1]).mode = .follow ∧
      (∃ x ∈ hub.claims[lineRes 2], x.holder ≠ 1) ∧ (hub.lines[2]).mode ≠ .follow := by decide +kernel
theorem witness_RequestsLeaveOtherMastersAlone_step :
    (∃ t, exec (.closeSession (m0 .closeSession)) hub = .next t) ∧
      ∃ t, exec (.closeSession (m1 .closeSession)) hub = .next t := ⟨⟨_, rfl⟩, ⟨_, rfl⟩⟩

end Sys2Proof.Tests
end

section
/-! SUPPORT. What an admitted request leaves when its owning block refuses it and when it answers: the two ends of every
request's happening. -/

namespace Sys2Proof.Machine

/-- The happening of an admitted request that its owning block answers (R166, check 7). -/
theorem State.happening_request_answered {s t : State} {h : Head} {k : Kind} {act : State → State × Reply}
    {status : Status} {results : Results} (ha : Admitted s h k)
    (hact : act (s.frameAccepted h.port) = (t, some (status, results))) :
    (s.happening fun u => u.request h k act) = s.awaitsEnded (t.reply h k status results) := by
  rw [State.happening, State.notify_eq_awaitsEnded, State.request_of_admitted act ha, State.execute, hact, State.reply]

/-- The happening of an admitted request that its owning block refuses: no queue grows, so no AWAIT ends (R178). -/
theorem State.happening_request_refused {s : State} {h : Head} {k : Kind} {act : State → State × Reply}
    {status : Status} (ha : Admitted s h k)
    (hact : act (s.frameAccepted h.port) = (s.frameAccepted h.port).refuse status) :
    (s.happening fun u => u.request h k act) = s.refused h k status := by
  rw [State.happening_request_answered ha hact]
  exact State.awaitsEnded_of_no_growth fun p => by simp [State.reply]

/-- A broadcast to every open session. -/
theorem State.broadcast_all (s : State) (e : Event) : s.broadcast none e = s.posted fun _ => [e] := by
  simp [State.broadcast_eq_posted]

/-- A broadcast to every open session but the requester's (R94). -/
theorem State.broadcast_others (s : State) (p : PortId) (e : Event) :
    s.broadcast (some p) e = s.posted (toOthers p e) := by
  rw [State.broadcast_eq_posted]
  congr 1; funext q
  simp only [toOthers, Option.some.injEq, eq_comm]

end Sys2Proof.Machine
end

section
/-! SUPPORT. The parameter fields of a CHAN_CONFIG by their numbers (R20, R183, R186). -/

namespace Sys2Proof.Machine

theorem chanOf_eq_none {b : Byte} (h : 8 ≤ b.toNat) : chanOf b = none := dif_neg (Nat.not_lt.mpr h)

theorem chanOf_eq_some {b : Byte} {c : ChanId} (h : b.toNat = c) : chanOf b = some c := by
  rw [chanOf, dif_pos (h ▸ c.isLt)]
  exact congrArg some (Fin.ext h)

theorem yesNoOf_eq (b : Byte) : yesNoOf b = if b.toNat ≤ 1 then some (decide (b.toNat = 1)) else none := by
  obtain rfl | rfl | ⟨h0, h1, h⟩ : b = 0 ∨ b = 1 ∨ b ≠ 0 ∧ b ≠ 1 ∧ ¬ b.toNat ≤ 1 := by bv_omega
  · rfl
  · rfl
  · rw [yesNoOf, if_neg h0, if_neg h1, if_neg h]

theorem modulusOf_eq (w : Word) :
    modulusOf w = if w.toNat ≠ 1 ∧ w.toNat ≤ 16777216 then some w.toNat else none := by
  have h : (w.toNat = 0 ∨ (2 ≤ w.toNat ∧ w.toNat ≤ Config.maxModulus)) ↔ w.toNat ≠ 1 ∧ w.toNat ≤ 16777216 := by
    simp only [Config.maxModulus]; omega
  simp only [modulusOf, h]

/-- The codes 0 to 3 are those of the four counting modes, in the order of R183. -/
theorem chanModeOf_eq (b : Byte) :
    chanModeOf b =
      if h : b.toNat < 4 then some ([ChanMode.off, .quad, .eventDir, .eventUp][b.toNat]'h) else none := by
  obtain rfl | rfl | rfl | rfl | ⟨h0, h1, h2, h3, h⟩ :
      b = 0 ∨ b = 1 ∨ b = 2 ∨ b = 3 ∨ b ≠ 0 ∧ b ≠ 1 ∧ b ≠ 2 ∧ b ≠ 3 ∧ ¬ b.toNat < 4 := by bv_omega
  · rfl
  · rfl
  · rfl
  · rfl
  · rw [chanModeOf, if_neg h0, if_neg h1, if_neg h2, if_neg h3, dif_neg h]

theorem chanModeOf_isSome {b : Byte} : (∃ m, chanModeOf b = some m) ↔ b.toNat ≤ 3 := by
  rw [chanModeOf_eq]
  by_cases h : b.toNat < 4
  · simp only [dif_pos h, Option.some.injEq, exists_eq', true_iff]; omega
  · simp only [dif_neg h, reduceCtorEq, exists_false, false_iff]; omega

theorem chanModeOf_off {b : Byte} {m : ChanMode} (h : chanModeOf b = some m) : m = .off ↔ b.toNat = 0 := by
  have hb : b.toNat < 4 := by have := chanModeOf_isSome.mp ⟨m, h⟩; omega
  rw [chanModeOf_eq, dif_pos hb, Option.some.injEq] at h
  rw [← h]
  generalize b.toNat = n at hb ⊢
  match n, hb with
  | 0, _ => simp
  | 1, _ => simp
  | 2, _ => simp
  | 3, _ => simp

/-- The fields of a CHAN_CONFIG all lie in their codes and ranges (R20, R183, R186). -/
def ChanFieldsKnown (mode : Byte) (modulus : Word) (invert gateUse indexMark : Byte) : Prop :=
  mode.toNat ≤ 3 ∧ modulus.toNat ≠ 1 ∧ modulus.toNat ≤ 16777216 ∧ invert.toNat ≤ 1 ∧ gateUse.toNat ≤ 1 ∧
    indexMark.toNat ≤ 1

/-- The configuration that known fields carry. -/
theorem chanSetupOf_of_known {mode : Byte} {modulus : Word} {invert gateUse indexMark : Byte} {m : ChanMode}
    (hk : ChanFieldsKnown mode modulus invert gateUse indexMark) (hm : chanModeOf mode = some m) :
    chanSetupOf mode modulus invert gateUse indexMark =
      some ⟨m, modulus.toNat, decide (invert.toNat = 1), decide (gateUse.toNat = 1), decide (indexMark.toNat = 1)⟩ := by
  obtain ⟨-, hm1, hm2, hi, hg, hx⟩ := hk
  simp only [chanSetupOf, hm, modulusOf_eq, yesNoOf_eq, if_pos (And.intro hm1 hm2), if_pos hi, if_pos hg, if_pos hx]

/-- A configuration is carried only by known fields. -/
theorem chanSetupOf_of_not_known {mode : Byte} {modulus : Word} {invert gateUse indexMark : Byte}
    (hk : ¬ ChanFieldsKnown mode modulus invert gateUse indexMark) :
    chanSetupOf mode modulus invert gateUse indexMark = none := by
  rw [chanSetupOf]
  split
  · rename_i m md iv gu im hm hmd hiv hgu him
    simp only [modulusOf_eq, yesNoOf_eq, Option.ite_none_right_eq_some] at hmd hiv hgu him
    obtain ⟨⟨hmd1, hmd2⟩, -⟩ := hmd
    obtain ⟨hiv, -⟩ := hiv
    obtain ⟨hgu, -⟩ := hgu
    obtain ⟨him, -⟩ := him
    exact absurd ⟨chanModeOf_isSome.mp ⟨m, hm⟩, hmd1, hmd2, hiv, hgu, him⟩ hk
  · rfl

end Sys2Proof.Machine
end

section
/-! SUPPORT. Counting channels: the effect of a transition of the pair by its direction, the gate, the use check and the
record that a configuration leaves (R5 to R13, R20, R21). -/

namespace Sys2Proof.Machine

/-! ## Transitions of the pair -/

theorem exec_abPairTransition (c : ChanId) (change : PairChange) (s : State) :
    exec (.abPairTransition c change) s = .next (s.happening fun t => t.abTransition c change) := rfl

/-- A channel record written twice holds the later one. -/
@[simp] theorem State.setChannel_setChannel (s : State) (c : ChanId) (x y : Channel) :
    (s.setChannel c x).setChannel c y = s.setChannel c y := by
  simp [State.setChannel]

theorem directionOf_sign (up invert : Bool) : (directionOf up invert).sign = if up = invert then -1 else 1 := by
  cases up <;> cases invert <;> rfl

theorem satIncByte_eq (n : Byte) : satIncByte n = BitVec.ofNat 8 (min 255 (n.toNat + 1)) := by
  apply BitVec.eq_of_toNat_eq
  rw [satIncByte, BitVec.toNat_ofNat]
  split
  · rename_i h; subst h; rfl
  · bv_omega

@[simp] theorem Levels.changed_g (x : Levels) (change : PairChange) : (x.changed change).g = x.g := by
  cases change <;> rfl

/-- A step of a lawful channel over its new A/B levels is the step that the claims name (R9 to R11). -/
theorem State.stepChannel_eq_counted {s : State} {c : ChanId} (hl : (s.channels[c]).Lawful) (change : PairChange)
    (d : Direction) :
    (s.setChannel c { s.channels[c] with levels := (s.channels[c]).levels.changed change }).stepChannel c d =
      s.counted c ((s.channels[c]).levels.changed change) d.sign := by
  have hx : ({ s.channels[c] with levels := (s.channels[c]).levels.changed change } : Channel).Lawful := by
    simpa only [Channel.Lawful, Levels.changed_g] using hl
  have hget : (s.setChannel c { s.channels[c] with levels := (s.channels[c]).levels.changed change }).channels[c] =
      { s.channels[c] with levels := (s.channels[c]).levels.changed change } := by simp
  simp only [State.stepChannel, hget, Channel.stepped_eq hx, decide_eq_true_eq, State.setChannel_setChannel,
    State.discontinuity_eq, State.counted]

/-- The fault of a channel over its new levels: the record it leaves, and CHANNEL_FAULT to every open session (R13). -/
theorem State.faultChannel_setChannel (s : State) (c : ChanId) (x : Channel) :
    (s.setChannel c x).faultChannel c =
      (s.setChannel c { x with
        state := .fault, referenced := false, homing := false
        faultCount := BitVec.ofNat 8 (min 255 (x.faultCount.toNat + 1)) }).posted
          fun _ => [.channelFault c x.count] := by
  have hget : (s.setChannel c x).channels[c] = x := by simp
  rw [State.faultChannel, hget, State.broadcast_all, State.setChannel_setChannel, Channel.faulted, satIncByte_eq]

/-- In COUNTING a transition that is no step only updates the levels. -/
theorem exec_abPairTransition_of_nothing {s : State} {c : ChanId} {change : PairChange}
    (hst : (s.channels[c]).state = .counting)
    (he : pairEffect (s.channels[c]).mode (s.channels[c]).invert (s.channels[c]).levels change = .nothing) :
    exec (.abPairTransition c change) s =
      .next (s.setChannel c { s.channels[c] with levels := (s.channels[c]).levels.changed change }) := by
  have ht : s.abTransition c change =
      s.setChannel c { s.channels[c] with levels := (s.channels[c]).levels.changed change } := by
    simp only [State.abTransition, hst, if_true, he]
  rw [exec_abPairTransition, State.happening_of_queues] <;> rw [ht]
  rfl

/-- In COUNTING a transition that is a step counts it. -/
theorem exec_abPairTransition_of_step {s : State} {c : ChanId} {change : PairChange} {d : Direction}
    (hl : (s.channels[c]).Lawful) (hst : (s.channels[c]).state = .counting)
    (he : pairEffect (s.channels[c]).mode (s.channels[c]).invert (s.channels[c]).levels change = .step d) :
    exec (.abPairTransition c change) s =
      .next (s.awaitsEnded (s.counted c ((s.channels[c]).levels.changed change) d.sign)) := by
  rw [exec_abPairTransition, State.happening, State.notify_eq_awaitsEnded, ← State.stepChannel_eq_counted hl]
  simp only [State.abTransition, hst, if_true, he]

/-- In COUNTING a transition that is illegal faults the channel over its new levels. -/
theorem exec_abPairTransition_of_illegal {s : State} {c : ChanId} {change : PairChange}
    (hst : (s.channels[c]).state = .counting)
    (he : pairEffect (s.channels[c]).mode (s.channels[c]).invert (s.channels[c]).levels change = .illegal) :
    exec (.abPairTransition c change) s =
      .next (s.awaitsEnded ((s.setChannel c
        { s.channels[c] with levels := (s.channels[c]).levels.changed change }).faultChannel c)) := by
  rw [exec_abPairTransition, State.happening, State.notify_eq_awaitsEnded]
  simp only [State.abTransition, hst, if_true, he]

/-- In QUAD a transition of one input is a step, forward exactly along the forward sequence (R5). -/
theorem pairEffect_quad {change : PairChange} (hc : change ≠ .both) (invert : Bool) (old : Levels) :
    pairEffect .quad invert old change =
      .step (directionOf (quadForward.contains ((old.a, old.b), ((old.changed change).a, (old.changed change).b)))
        invert) := by
  obtain ⟨a, b, i, g⟩ := old
  cases change with
  | aOnly => cases a <;> cases b <;> rfl
  | bOnly => cases a <;> cases b <;> rfl
  | both => exact absurd rfl hc

/-- In EVENT_DIR a rise of A is a step by the new level of B (R7). -/
theorem pairEffect_eventDir (invert : Bool) (old : Levels) (change : PairChange) :
    pairEffect .eventDir invert old change =
      if old.a = false ∧ (old.changed change).a = true then .step (directionOf (old.changed change).b invert)
      else .nothing := by
  simp only [pairEffect, Bool.and_eq_true, Bool.not_eq_true']

/-- In EVENT_UP a rise of A is a step whose direction invert alone decides (R8). -/
theorem pairEffect_eventUp (invert : Bool) (old : Levels) (change : PairChange) :
    pairEffect .eventUp invert old change =
      if old.a = false ∧ (old.changed change).a = true then .step (directionOf true invert) else .nothing := by
  simp only [pairEffect, Bool.and_eq_true, Bool.not_eq_true']

/-- In COUNTING, where a transition is a step exactly on a rise of A, the rise is counted and any other transition only
updates the levels. -/
theorem exec_abPairTransition_of_rise {s : State} {c : ChanId} {change : PairChange} {d : Direction}
    (hl : (s.channels[c]).Lawful) (hst : (s.channels[c]).state = .counting)
    (he : pairEffect (s.channels[c]).mode (s.channels[c]).invert (s.channels[c]).levels change =
      if (s.channels[c]).levels.a = false ∧ ((s.channels[c]).levels.changed change).a = true then .step d
      else .nothing) :
    exec (.abPairTransition c change) s =
      if (s.channels[c]).levels.a = false ∧ ((s.channels[c]).levels.changed change).a = true then
        .next (s.awaitsEnded (s.counted c ((s.channels[c]).levels.changed change) d.sign))
      else .next (s.setChannel c { s.channels[c] with levels := (s.channels[c]).levels.changed change }) := by
  by_cases hr : (s.channels[c]).levels.a = false ∧ ((s.channels[c]).levels.changed change).a = true
  · rw [if_pos hr] at he ⊢
    exact exec_abPairTransition_of_step hl hst he
  · rw [if_neg hr] at he ⊢
    exact exec_abPairTransition_of_nothing hst he

/-! ## The gate -/

theorem gateState_eq (gateUse g : Bool) :
    gateState gateUse g = if gateUse = true ∧ g = false then .held else .counting := by
  cases gateUse <;> cases g <;> rfl

/-- The gate decides between COUNTING and HELD alone (R12). -/
theorem Channel.regated_eq (x : Channel) :
    x.regated = { x with
      state := if x.state = .counting ∨ x.state = .held then gateState x.gateUse x.levels.g else x.state } := by
  obtain ⟨mode, M, inv, gu, im, st, n, t, rf, wr, hm, mk, fc, lv⟩ := x
  cases st <;> rfl

/-! ## CHAN_CONFIG -/

theorem exec_chanConfig (h : Head) (channel mode : Byte) (modulus : Word) (invert gateUse indexMark : Byte)
    (s : State) :
    exec (.chanConfig h channel mode modulus invert gateUse indexMark) s =
      .next (s.happening fun t =>
        t.request h .chanConfig (actChanConfig h.port channel mode modulus invert gateUse indexMark)) := rfl

theorem State.zonesOn_iff {s : State} {c : ChanId} :
    s.zonesOn c = true ↔ ∃ z : ZoneId, ∃ y ∈ s.zones[z], y.channel = c := by
  simp only [State.zonesOn, List.any_eq_true, Vector.mem_toList_iff, Option.any_eq_true, beq_iff_eq]
  constructor
  · rintro ⟨o, ho, y, hy, hc⟩
    obtain ⟨i, hi, rfl⟩ := Vector.mem_iff_getElem.mp ho
    exact ⟨⟨i, hi⟩, y, hy, hc⟩
  · rintro ⟨z, y, hy, hc⟩
    exact ⟨s.zones[z], Vector.getElem_mem _, y, hy, hc⟩

/-- The use check of R20: mode OFF where it was not, or another modulus, under a zone. -/
theorem State.configInUse_iff {s : State} {c : ChanId} {f : ChanSetup} :
    s.configInUse c f = true ↔ (∃ z : ZoneId, ∃ y ∈ s.zones[z], y.channel = c) ∧
      (f.mode = .off ∧ (s.channels[c]).mode ≠ .off ∨ f.modulus ≠ (s.channels[c]).modulus) := by
  simp only [State.configInUse, Bool.and_eq_true, State.zonesOn_iff, Bool.or_eq_true, beq_iff_eq, bne_iff_ne]

/-- The use check of a request's mode code, after its frame is accepted. -/
theorem State.configInUse_of_code {s : State} {p : PortId} {c : ChanId} {mode : Byte} {f : ChanSetup}
    (hm : chanModeOf mode = some f.mode) :
    (s.frameAccepted p).configInUse c f = true ↔ (∃ z : ZoneId, ∃ y ∈ s.zones[z], y.channel = c) ∧
      (mode.toNat = 0 ∧ (s.channels[c]).mode ≠ .off ∨ f.modulus ≠ (s.channels[c]).modulus) := by
  rw [← chanModeOf_off hm]
  exact State.configInUse_iff

/-- A configuration changes the channel when its mode or its modulus is another (R21). -/
theorem Channel.changes_iff {x : Channel} {f : ChanSetup} :
    x.changes f = true ↔ f.mode ≠ x.mode ∨ f.modulus ≠ x.modulus := by
  simp only [Channel.changes, Bool.or_eq_true, bne_iff_ne]

/-- CHAN_CONFIG with a channel number above 7 (R19). -/
theorem actChanConfig_of_no_channel {s : State} {p : PortId} {channel mode : Byte} {modulus : Word}
    {invert gateUse indexMark : Byte} (hc : 8 ≤ channel.toNat) :
    actChanConfig p channel mode modulus invert gateUse indexMark s = s.refuse .badArg := by
  simp only [actChanConfig, chanOf_eq_none hc]

/-- CHAN_CONFIG at a channel that another or nobody holds (R19). -/
theorem actChanConfig_of_not_held {s : State} {p : PortId} {channel mode : Byte} {modulus : Word}
    {invert gateUse indexMark : Byte} {c : ChanId} (hc : channel.toNat = c) (hh : s.holder (chanRes c) ≠ some p) :
    actChanConfig p channel mode modulus invert gateUse indexMark s = s.refuse .notHolder := by
  simp only [actChanConfig, chanOf_eq_some hc, if_pos hh]

/-- CHAN_CONFIG by the holder with a field outside its codes (R20). -/
theorem actChanConfig_of_not_known {s : State} {p : PortId} {channel mode : Byte} {modulus : Word}
    {invert gateUse indexMark : Byte} {c : ChanId} (hc : channel.toNat = c) (hh : s.holder (chanRes c) = some p)
    (hk : ¬ ChanFieldsKnown mode modulus invert gateUse indexMark) :
    actChanConfig p channel mode modulus invert gateUse indexMark s = s.refuse .badArg := by
  simp only [actChanConfig, chanOf_eq_some hc, if_neg (not_not_intro hh), chanSetupOf_of_not_known hk]

/-- CHAN_CONFIG by the holder with a known configuration: the use check, then the effects (R20, R21). -/
theorem actChanConfig_of_known {s : State} {p : PortId} {channel mode : Byte} {modulus : Word}
    {invert gateUse indexMark : Byte} {c : ChanId} {f : ChanSetup} (hc : channel.toNat = c)
    (hh : s.holder (chanRes c) = some p) (hf : chanSetupOf mode modulus invert gateUse indexMark = some f) :
    actChanConfig p channel mode modulus invert gateUse indexMark s =
      if s.configInUse c f then s.refuse .inUse else (s.configure p c f).done := by
  simp only [actChanConfig, chanOf_eq_some hc, if_neg (not_not_intro hh), hf]

/-- The record of a channel whose mode or modulus a configuration changes (R21). -/
theorem Channel.configured_of_changes {x : Channel} {f : ChanSetup} (h : f.mode ≠ x.mode ∨ f.modulus ≠ x.modulus) :
    x.configured f = { x with
      mode := f.mode, modulus := f.modulus, invert := f.invert, gateUse := f.gateUse, indexMark := f.indexMark
      count := 0, turns := 0, referenced := false, wrapped := false, homing := false, mark := none
      state := if f.mode = .off then .off
        else if f.gateUse = true ∧ x.levels.g = false then .held else .counting } := by
  simp only [Channel.configured, if_pos (Channel.changes_iff.mpr h), gateState_eq]

/-- The record of a channel whose mode and modulus a configuration keeps: a COUNTING or HELD channel follows its gate
(R21). -/
theorem Channel.configured_of_same {x : Channel} {f : ChanSetup} (h : ¬ (f.mode ≠ x.mode ∨ f.modulus ≠ x.modulus)) :
    x.configured f = { x with
      mode := f.mode, modulus := f.modulus, invert := f.invert, gateUse := f.gateUse, indexMark := f.indexMark
      state := if x.state = .counting ∨ x.state = .held then
          if f.gateUse = true ∧ x.levels.g = false then .held else .counting
        else x.state } := by
  simp only [Channel.configured, if_neg (mt Channel.changes_iff.mp h), Channel.regated_eq, gateState_eq]

/-- The effects of a configuration: the record, CHANNEL_RECONFIGURED to the others, and, when the mode or the modulus
changes, the discontinuity (R21). -/
theorem State.configure_eq (s : State) (p : PortId) (c : ChanId) (f : ChanSetup) :
    s.configure p c f =
      if f.mode ≠ (s.channels[c]).mode ∨ f.modulus ≠ (s.channels[c]).modulus then
        ((s.setChannel c ((s.channels[c]).configured f)).posted (toOthers p (.channelReconfigured c))).resynced c
      else (s.setChannel c ((s.channels[c]).configured f)).posted (toOthers p (.channelReconfigured c)) := by
  simp only [State.configure, State.broadcast_others, State.discontinuity_eq, Channel.changes_iff]

end Sys2Proof.Machine
end

section
/-! SUPPORT. The statements about counting channels, settled. -/

namespace Sys2Proof.Machine

/-- Settles O12: a transition of one input in QUAD is a step along the phase order, and a step is counted. -/
theorem quadCountsByPhase : Obligations.QuadCountsByPhase := by
  intro c change s hl hm hst hc
  dsimp only
  have he := pairEffect_quad hc (s.channels[c]).invert (s.channels[c]).levels
  rw [← hm] at he
  rw [exec_abPairTransition_of_step hl hst he, directionOf_sign]

/-- Settles O13: a rise of A is a step by the new level of B, and any other transition is nothing. -/
theorem eventDirCountsRisesOfA : Obligations.EventDirCountsRisesOfA := by
  intro c change s hl hm hst
  dsimp only
  rw [exec_abPairTransition_of_rise hl hst (by rw [hm, pairEffect_eventDir]), directionOf_sign]

/-- Settles O14: a rise of A is a step whose direction invert alone decides, and any other transition is nothing. -/
theorem eventUpCountsRisesOfA : Obligations.EventUpCountsRisesOfA := by
  intro c change s hl hm hst
  dsimp only
  rw [exec_abPairTransition_of_rise hl hst (by rw [hm, pairEffect_eventUp]), directionOf_sign]
  simp only [eq_comm]

/-- Settles O15: in QUAD a transition of both inputs is illegal, and the fault is posted to every open session. -/
theorem illegalTransitionFaults : Obligations.IllegalTransitionFaults := by
  intro c s hm hst
  dsimp only
  have he : pairEffect (s.channels[c]).mode (s.channels[c]).invert (s.channels[c]).levels .both = .illegal := by
    rw [hm]; rfl
  rw [exec_abPairTransition_of_illegal hst he, State.faultChannel_setChannel]
  rfl

/-- Settles O19, check by check in the order of R19 and R20, then by whether the mode or the modulus changes. -/
theorem chanConfigSetsTheChannel : Obligations.ChanConfigSetsTheChannel := by
  intro h channel mode modulus invert gateUse indexMark s ha
  dsimp only
  simp only [exec_chanConfig]
  refine ⟨fun hch => ?_, fun c hc => ⟨fun hh => ?_, fun hh hk => ?_, fun hh hk hu => ?_, fun hh hk hu m hm => ?_⟩⟩
  · rw [State.happening_request_refused ha (actChanConfig_of_no_channel hch)]
  · rw [State.happening_request_refused ha (actChanConfig_of_not_held hc hh)]
  · rw [State.happening_request_refused ha (actChanConfig_of_not_known hc hh hk)]
  · obtain ⟨m, hm⟩ := chanModeOf_isSome.mpr hk.1
    have hact := actChanConfig_of_known (s := s.frameAccepted h.port) hc hh (chanSetupOf_of_known hk hm)
    rw [if_pos ((State.configInUse_of_code hm).mpr hu)] at hact
    rw [State.happening_request_refused ha hact]
  · have hact := actChanConfig_of_known (s := s.frameAccepted h.port) hc hh (chanSetupOf_of_known hk hm)
    rw [if_neg (mt (State.configInUse_of_code hm).mp hu)] at hact
    rw [State.happening_request_answered ha hact, State.configure_eq, State.frameAccepted_channels]
    by_cases hd : m ≠ (s.channels[c]).mode ∨ modulus.toNat ≠ (s.channels[c]).modulus
    · rw [if_pos hd, if_pos hd, Channel.configured_of_changes hd]
      simp only [decide_eq_true_eq]
    · rw [if_neg hd, if_neg hd, Channel.configured_of_same hd]
      simp only [decide_eq_true_eq]

end Sys2Proof.Machine
end

section
/-! SUPPORT. ZONE_CREATE: the lowest free slot, the parameter fields by their numbers, and what each check of R54 leaves
(R36, R54, R55, R186). -/

namespace Sys2Proof.Machine

/-- The happening of an admitted request whose answer posts nothing: no AWAIT ends. -/
theorem State.happening_request_answered_of_queues {s t : State} {h : Head} {k : Kind} {act : State → State × Reply}
    {status : Status} {results : Results} (ha : Admitted s h k)
    (hact : act (s.frameAccepted h.port) = (t, some (status, results))) (hq : t.queues = s.queues) :
    (s.happening fun u => u.request h k act) = t.reply h k status results := by
  rw [State.happening_request_answered ha hact]
  exact State.awaitsEnded_of_no_growth fun p => by simp only [State.reply, State.answer_queues, hq, le_refl]

@[simp] theorem State.recomputeLink_queues (s : State) (link : Option Link) :
    (s.recomputeLink link).queues = s.queues := by
  rw [State.recomputeLink_eq]

/-! ## The lowest free slot (R36) -/

theorem State.freeSlot_eq_none {s : State} (h : ∀ z : ZoneId, s.zones[z] ≠ none) : s.freeSlot = none := by
  rw [State.freeSlot, ← Fin.find?_eq_find?_finRange, Fin.find?_eq_none_iff]
  exact fun z => Option.isNone_eq_false_iff.mpr (Option.isSome_iff_ne_none.mpr (h z))

theorem State.freeSlot_eq_some {s : State} {z : ZoneId} (hz : s.zones[z] = none)
    (hlow : ∀ z' : ZoneId, z' < z → s.zones[z'] ≠ none) : s.freeSlot = some z := by
  rw [State.freeSlot, ← Fin.find?_eq_find?_finRange, Fin.find?_eq_some_iff]
  exact ⟨Option.isNone_iff_eq_none.mpr hz,
    fun z' hz' => Option.isNone_eq_false_iff.mpr (Option.isSome_iff_ne_none.mpr (hlow z' hz'))⟩

/-! ## The parameter fields by their numbers (R186) -/

theorem lineOf_eq_some {b : Byte} (h : b.toNat ≤ 5) : lineOf b = some ⟨b.toNat, by omega⟩ := dif_pos _

theorem lineOf_eq_none {b : Byte} (h : ¬ b.toNat ≤ 5) : lineOf b = none := dif_neg (by omega)

theorem actionSetOf_eq (event mask trigger : Byte) :
    actionSetOf event mask trigger =
      if event.toNat ≤ 1 ∧ trigger.toNat ≤ 1 then
        some ⟨decide (event.toNat = 1), mask, decide (trigger.toNat = 1)⟩
      else none := by
  rw [actionSetOf, yesNoOf_eq, yesNoOf_eq]
  by_cases he : event.toNat ≤ 1
  · by_cases ht : trigger.toNat ≤ 1
    · simp only [if_pos he, if_pos ht, if_pos (And.intro he ht)]
    · simp only [if_pos he, if_neg ht, if_neg (mt And.right ht)]
  · simp only [if_neg he, if_neg (mt And.left he)]

/-- The output link that a line byte and a follow byte give: 0xFF is an absent link. -/
abbrev givenLink (line follow : Byte) : Option Link :=
  if line ≠ 0xFF then (lineOf line).map fun k => ⟨k, decide (follow.toNat = 1)⟩ else none

/-- The bytes of a link lie in their codes; the follow byte of an absent link is not examined. -/
abbrev LinkKnown (line follow : Byte) : Prop := line ≠ 0xFF → line.toNat ≤ 5 ∧ follow.toNat ≤ 1

theorem linkOf_eq (line follow : Byte) :
    linkOf line follow = if LinkKnown line follow then some (givenLink line follow) else none := by
  by_cases hl : line = 0xFF
  · rw [linkOf, if_pos hl, if_pos (fun h => absurd hl h), givenLink, if_neg (not_not_intro hl)]
  · rw [linkOf, if_neg hl, givenLink, if_pos hl, yesNoOf_eq]
    by_cases h5 : line.toNat ≤ 5
    · by_cases hf : follow.toNat ≤ 1
      · rw [lineOf_eq_some h5, if_pos hf, if_pos fun _ => ⟨h5, hf⟩]; rfl
      · have hno : ¬ LinkKnown line follow := fun h => hf (h hl).2
        rw [lineOf_eq_some h5, if_neg hf, if_neg hno]
    · have hno : ¬ LinkKnown line follow := fun h => h5 (h hl).1
      rw [lineOf_eq_none h5, if_neg hno]

/-- A known link is present exactly where its line byte is not 0xFF. -/
theorem givenLink_isSome {line follow : Byte} (h : LinkKnown line follow) :
    (givenLink line follow).isSome = true ↔ line ≠ 0xFF := by
  by_cases hl : line = 0xFF
  · simp [givenLink, hl]
  · simp [givenLink, lineOf_eq_some (h hl).1]

/-- The bounds and the hysteresis fit the channel: in order on a linear channel; on a modulus channel inside it, and the
window and the hysteresis leave room outside (R41, R43, R54). -/
abbrev BoundsHold (M : Nat) (low high : Int) (hyst : Nat) : Prop :=
  if M = 0 then low ≤ high
  else 0 ≤ low ∧ low < (M : Int) ∧ 0 ≤ high ∧ high < (M : Int) ∧ (high - low) % (M : Int) + 1 < (M : Int) ∧
    2 * (hyst : Int) < (M : Int) - ((high - low) % (M : Int) + 1)

theorem boundsFit_iff {M : Nat} {low high : Int} {hyst : Nat} :
    boundsFit M low high hyst = true ↔ BoundsHold M low high hyst := by
  by_cases hM : M = 0
  · rw [boundsFit, BoundsHold, if_pos hM, if_pos hM, decide_eq_true_eq]
  · rw [boundsFit, BoundsHold, if_neg hM, if_neg hM, decide_eq_true_eq, windowWidth]

/-- The yes/no bytes and the link of a ZONE_CREATE lie in their codes, and no action set triggers an absent link (R54,
R186). -/
abbrev ZoneFieldsKnown (q : ZoneParams) : Prop :=
  q.enterEvent.toNat ≤ 1 ∧ q.enterTrigger.toNat ≤ 1 ∧ q.exitEvent.toNat ≤ 1 ∧ q.exitTrigger.toNat ≤ 1 ∧
    (q.linkLine ≠ 0xFF → q.linkLine.toNat ≤ 5 ∧ q.linkFollow.toNat ≤ 1) ∧
    (¬ q.linkLine ≠ 0xFF → q.enterTrigger = 0 ∧ q.exitTrigger = 0)

/-- The record of a new zone with its state (R55). -/
def createdZone (p : PortId) (c : ChanId) (q : ZoneParams) (st : ZoneState) : Zone :=
  { owner := p, channel := c, low := q.low.toInt, high := q.high.toInt, hysteresis := q.hysteresis.toNat
    armed := true, state := st
    onEnter := ⟨decide (q.enterEvent.toNat = 1), q.enterMask, decide (q.enterTrigger.toNat = 1)⟩
    onExit := ⟨decide (q.exitEvent.toNat = 1), q.exitMask, decide (q.exitTrigger.toNat = 1)⟩
    link := givenLink q.linkLine q.linkFollow, entryCount := 0 }

/-- A yes/no byte is no exactly where it is 0. -/
theorem yesNo_eq_false {b : Byte} (h : b.toNat ≤ 1) : decide (b.toNat = 1) = false ↔ b = 0 := by
  rw [decide_eq_false_iff_not]; bv_omega

/-- The link test of check 4: a link, or two triggers that are no (R54). -/
theorem triggersLinked_iff {q : ZoneParams} (hn : q.enterTrigger.toNat ≤ 1) (hx : q.exitTrigger.toNat ≤ 1)
    (hl : LinkKnown q.linkLine q.linkFollow) :
    ((givenLink q.linkLine q.linkFollow).isSome ||
        !(decide (q.enterTrigger.toNat = 1) || decide (q.exitTrigger.toNat = 1))) = true ↔
      (¬ q.linkLine ≠ 0xFF → q.enterTrigger = 0 ∧ q.exitTrigger = 0) := by
  rw [Bool.or_eq_true, givenLink_isSome hl, Bool.not_eq_true', Bool.or_eq_false_iff, yesNo_eq_false hn,
    yesNo_eq_false hx, or_iff_not_imp_left]

/-- Check 4 of R54 makes the record exactly of bounds that fit and fields that are known. -/
theorem newZone_eq (p : PortId) (c : ChanId) (M : Nat) (q : ZoneParams) :
    newZone p c M q =
      if BoundsHold M q.low.toInt q.high.toInt q.hysteresis.toNat ∧ ZoneFieldsKnown q then
        some (createdZone p c q .outside)
      else none := by
  rw [newZone, actionSetOf_eq, actionSetOf_eq, linkOf_eq]
  by_cases hk : (q.enterEvent.toNat ≤ 1 ∧ q.enterTrigger.toNat ≤ 1) ∧
      (q.exitEvent.toNat ≤ 1 ∧ q.exitTrigger.toNat ≤ 1) ∧ LinkKnown q.linkLine q.linkFollow
  · obtain ⟨hn, hx, hl⟩ := hk
    have hiff : (boundsFit M q.low.toInt q.high.toInt q.hysteresis.toNat &&
          ((givenLink q.linkLine q.linkFollow).isSome ||
            !(decide (q.enterTrigger.toNat = 1) || decide (q.exitTrigger.toNat = 1)))) = true ↔
        BoundsHold M q.low.toInt q.high.toInt q.hysteresis.toNat ∧ ZoneFieldsKnown q := by
      rw [Bool.and_eq_true, boundsFit_iff, triggersLinked_iff hn.2 hx.2 hl]
      exact and_congr_right fun _ => ⟨fun h => ⟨hn.1, hn.2, hx.1, hx.2, hl, h⟩, fun ⟨_, _, _, _, _, h⟩ => h⟩
    rw [if_pos hn, if_pos hx, if_pos hl]
    exact ite_congr (propext hiff) (fun _ => rfl) fun _ => rfl
  · have hno : ¬ (BoundsHold M q.low.toInt q.high.toInt q.hysteresis.toNat ∧ ZoneFieldsKnown q) :=
      fun ⟨_, he, ht, he', ht', hl, _⟩ => hk ⟨⟨he, ht⟩, ⟨he', ht'⟩, hl⟩
    rw [if_neg hno]
    split
    · rename_i hen hex hlk
      simp only [Option.ite_none_right_eq_some] at hen hex hlk
      exact absurd ⟨hen.1, hex.1, hlk.1⟩ hk
    · rfl

theorem State.linkHeld_iff {s : State} {p : PortId} {link : Option Link} :
    s.linkHeld p link = true ↔ ¬ ∃ l ∈ link, s.holder (lineRes l.line) ≠ some p := by
  cases link with
  | none => simp [State.linkHeld]
  | some l => simp [State.linkHeld]

/-! ## The checks of R54 in order, and the effects of R55 -/

theorem exec_zoneCreate (h : Head) (q : ZoneParams) (s : State) :
    exec (.zoneCreate h q) s = .next (s.happening fun t => t.request h .zoneCreate (actZoneCreate h.port q)) := rfl

section
variable {s : State} {p : PortId} {q : ZoneParams} {z : ZoneId} {c : ChanId}

/-- Check 1: a full table. -/
theorem actZoneCreate_of_full (hf : s.freeSlot = none) : actZoneCreate p q s = s.refuse .full := by
  simp only [actZoneCreate, hf]

/-- Check 2: a channel number above 7. -/
theorem actZoneCreate_of_no_channel (hz : s.freeSlot = some z) (hc : 8 ≤ q.channel.toNat) :
    actZoneCreate p q s = s.refuse .badArg := by
  simp only [actZoneCreate, hz, chanOf_eq_none hc]

/-- Check 3: a channel in mode OFF. -/
theorem actZoneCreate_of_off (hz : s.freeSlot = some z) (hc : q.channel.toNat = c)
    (ho : (s.channels[c]).mode = .off) : actZoneCreate p q s = s.refuse .channelOff := by
  simp only [actZoneCreate, hz, chanOf_eq_some hc, if_pos ho]

/-- Check 4: bounds that do not fit, or fields that are not known. -/
theorem actZoneCreate_of_not_known (hz : s.freeSlot = some z) (hc : q.channel.toNat = c)
    (ho : (s.channels[c]).mode ≠ .off)
    (hk : ¬ (BoundsHold (s.channels[c]).modulus q.low.toInt q.high.toInt q.hysteresis.toNat ∧ ZoneFieldsKnown q)) :
    actZoneCreate p q s = s.refuse .badArg := by
  simp only [actZoneCreate, hz, chanOf_eq_some hc, if_neg ho, newZone_eq, if_neg hk]

/-- Check 5: a link to a line that the requester does not hold. -/
theorem actZoneCreate_of_not_held (hz : s.freeSlot = some z) (hc : q.channel.toNat = c)
    (ho : (s.channels[c]).mode ≠ .off)
    (hk : BoundsHold (s.channels[c]).modulus q.low.toInt q.high.toInt q.hysteresis.toNat ∧ ZoneFieldsKnown q)
    (hu : ∃ l ∈ givenLink q.linkLine q.linkFollow, s.holder (lineRes l.line) ≠ some p) :
    actZoneCreate p q s = s.refuse .notHolder := by
  simp only [actZoneCreate, hz, chanOf_eq_some hc, if_neg ho, newZone_eq, if_pos hk]
  exact if_neg (mt State.linkHeld_iff.mp (not_not_intro hu))

/-- Every check passed: the record is stored with its raw state, and its link's re-computation asked for. -/
theorem actZoneCreate_of_accepted (hz : s.freeSlot = some z) (hc : q.channel.toNat = c)
    (ho : (s.channels[c]).mode ≠ .off)
    (hk : BoundsHold (s.channels[c]).modulus q.low.toInt q.high.toInt q.hysteresis.toNat ∧ ZoneFieldsKnown q)
    (hu : ¬ ∃ l ∈ givenLink q.linkLine q.linkFollow, s.holder (lineRes l.line) ≠ some p) :
    actZoneCreate p q s =
      (((s.setZone z (some (createdZone p c q (s.rawState (createdZone p c q .outside))))).recomputeLink
        (givenLink q.linkLine q.linkFollow)).doneWith
          (.zoneCreated z (s.rawState (createdZone p c q .outside)))) := by
  simp only [actZoneCreate, hz, chanOf_eq_some hc, if_neg ho, newZone_eq, if_pos hk]
  exact if_pos (State.linkHeld_iff.mpr hu)

end

end Sys2Proof.Machine
end

section
/-! SUPPORT. The statement about ZONE_CREATE, settled. -/

namespace Sys2Proof.Machine

/-- Settles O29, check by check in the order of R54; the accepted request posts nothing, so no AWAIT ends. -/
theorem zoneCreateTakesTheLowestSlot : Obligations.ZoneCreateTakesTheLowestSlot := by
  intro h q s ha
  dsimp only
  simp only [exec_zoneCreate]
  refine ⟨fun hfull => ?_, fun z hz hlow => ?_⟩
  · rw [State.happening_request_refused ha (actZoneCreate_of_full (State.freeSlot_eq_none hfull))]
  have hslot : (s.frameAccepted h.port).freeSlot = some z := State.freeSlot_eq_some hz hlow
  refine ⟨fun hch => ?_, fun c hc => ?_⟩
  · rw [State.happening_request_refused ha (actZoneCreate_of_no_channel hslot hch)]
  by_cases ho : (s.channels[c]).mode = .off
  · rw [if_pos ho, State.happening_request_refused ha (actZoneCreate_of_off hslot hc ho)]
  by_cases hk : BoundsHold (s.channels[c]).modulus q.low.toInt q.high.toInt q.hysteresis.toNat ∧ ZoneFieldsKnown q
  · by_cases hu : ∃ l ∈ givenLink q.linkLine q.linkFollow, s.holder (lineRes l.line) ≠ some h.port
    · rw [if_neg ho, if_neg (not_not_intro hk), if_pos hu,
        State.happening_request_refused ha (actZoneCreate_of_not_held hslot hc ho hk hu)]
    · rw [if_neg ho, if_neg (not_not_intro hk), if_neg hu,
        State.happening_request_answered_of_queues ha (actZoneCreate_of_accepted hslot hc ho hk hu)
          (State.recomputeLink_queues _ _)]
      rfl
  · rw [if_neg ho, if_pos hk, State.happening_request_refused ha (actZoneCreate_of_not_known hslot hc ho hk)]

end Sys2Proof.Machine
end

section
/-! SUPPORT. The lines of the output requests: the parameter fields by their numbers, the pin and the drive that a line
takes from its following zones, and what each check of OUT_MODE and OUT_SET leaves (R120, R123, R124, R131 to R133,
R186). -/

namespace Sys2Proof.Machine

/-! ## The parameter fields by their numbers (R183, R186) -/

theorem lineOf_eq_some_of_toNat {b : Byte} {k : LineId} (h : b.toNat = k) : lineOf b = some k :=
  (lineOf_eq_some (by omega)).trans (congrArg some (Fin.ext h))

theorem outModeOf_eq (b : Byte) :
    outModeOf b =
      if b.toNat ≤ 2 then some (if b = 0 then .direct else if b = 1 then .follow else .pulse) else none := by
  obtain rfl | rfl | rfl | ⟨h0, h1, h2, h⟩ : b = 0 ∨ b = 1 ∨ b = 2 ∨ b ≠ 0 ∧ b ≠ 1 ∧ b ≠ 2 ∧ ¬ b.toNat ≤ 2 := by
    bv_omega
  · rfl
  · rfl
  · rfl
  · rw [outModeOf, if_neg h0, if_neg h1, if_neg h2, if_neg h]

theorem polarityOf_eq (b : Byte) :
    polarityOf b = if b.toNat ≤ 1 then some (if b = 0 then .activeHigh else .activeLow) else none := by
  obtain rfl | rfl | ⟨h0, h1, h⟩ : b = 0 ∨ b = 1 ∨ b ≠ 0 ∧ b ≠ 1 ∧ ¬ b.toNat ≤ 1 := by bv_omega
  · rfl
  · rfl
  · rw [polarityOf, if_neg h0, if_neg h1, if_neg h]

theorem retriggerOf_eq (b : Byte) :
    retriggerOf b = if b.toNat ≤ 1 then some (if b = 1 then .restart else .ignore) else none := by
  obtain rfl | rfl | ⟨h0, h1, h⟩ : b = 0 ∨ b = 1 ∨ b ≠ 0 ∧ b ≠ 1 ∧ ¬ b.toNat ≤ 1 := by bv_omega
  · rfl
  · rfl
  · rw [retriggerOf, if_neg h0, if_neg h1, if_neg h]

/-- The fields of an OUT_MODE all lie in their codes and ranges (R131, check 3). -/
abbrev LineFieldsKnown (mode polarity : Byte) (width : Half) (retrigger : Byte) : Prop :=
  mode.toNat ≤ 2 ∧ polarity.toNat ≤ 1 ∧ width ≠ 0 ∧ retrigger.toNat ≤ 1

/-- The configuration that known fields carry. -/
abbrev givenSetup (mode polarity : Byte) (width : Half) (retrigger : Byte) : LineSetup :=
  { mode := if mode = 0 then .direct else if mode = 1 then .follow else .pulse
    polarity := if polarity = 0 then .activeHigh else .activeLow
    width := width
    retrigger := if retrigger = 1 then .restart else .ignore }

/-- Check 3 of R131 finds a configuration exactly in known fields. -/
theorem lineSetupOf_eq (mode polarity : Byte) (width : Half) (retrigger : Byte) :
    lineSetupOf mode polarity width retrigger =
      if LineFieldsKnown mode polarity width retrigger then some (givenSetup mode polarity width retrigger)
      else none := by
  rw [lineSetupOf, outModeOf_eq, polarityOf_eq, retriggerOf_eq]
  by_cases hk : mode.toNat ≤ 2 ∧ polarity.toNat ≤ 1 ∧ retrigger.toNat ≤ 1
  · obtain ⟨hm, hp, hr⟩ := hk
    by_cases hw : width = 0
    · have hno : ¬ LineFieldsKnown mode polarity width retrigger := fun ⟨_, _, h, _⟩ => h hw
      simp only [if_pos hm, if_pos hp, if_pos hr, if_pos hw, if_neg hno]
    · have hyes : LineFieldsKnown mode polarity width retrigger := ⟨hm, hp, hw, hr⟩
      simp only [if_pos hm, if_pos hp, if_pos hr, if_neg hw, if_pos hyes]
  · have hno : ¬ LineFieldsKnown mode polarity width retrigger := fun ⟨hm, hp, _, hr⟩ => hk ⟨hm, hp, hr⟩
    rw [if_neg hno]
    split
    · rename_i hm hp hr
      simp only [Option.ite_none_right_eq_some] at hm hp hr
      exact absurd ⟨hm.1, hp.1, hr.1⟩ hk
    · rfl

/-! ## The pin and the drive of a line (R120, R123, R124) -/

/-- The pin of a line that is driven by its direct level. -/
theorem pinLevel_direct (polarity : Polarity) (safe on : Bool) :
    pinLevel polarity safe (if on then .active else .inactive) =
      match polarity with
      | .activeHigh => on
      | .activeLow => !on := by
  cases polarity <;> cases on <;> rfl

/-- The pin of a driven line whose polarity is given by its code. -/
theorem pinLevel_of_code {d : Drive} (hd : d ≠ .safe) (polarity : Byte) (safe : Bool) :
    pinLevel (if polarity = 0 then .activeHigh else .activeLow) safe d =
      if d = .active then decide (polarity = 0) else decide (polarity ≠ 0) := by
  by_cases hp : polarity = 0
  · rw [if_pos hp, decide_eq_true hp, decide_eq_false (not_not_intro hp)]
    cases d with
    | safe => exact absurd rfl hd
    | active => rfl
    | inactive => rfl
  · rw [if_neg hp, decide_eq_false hp, decide_eq_true hp]
    cases d with
    | safe => exact absurd rfl hd
    | active => rfl
    | inactive => rfl

theorem Zone.shows_iff {y : Zone} {k : LineId} :
    y.shows k = true ↔ y.link = some ⟨k, true⟩ ∧ y.armed = true ∧ y.state = .inside := by
  simp only [Zone.shows, Bool.and_eq_true, beq_iff_eq, and_assoc]

/-- A line has a following zone that is armed and INSIDE (R124). -/
abbrev State.Followed (s : State) (k : LineId) : Prop :=
  ∃ z : ZoneId, ∃ y ∈ s.zones[z], y.link = some ⟨k, true⟩ ∧ y.armed = true ∧ y.state = .inside

/-- The zones of the table show a line exactly where one of its slots does. -/
theorem State.zones_show_iff {s : State} {k : LineId} :
    s.zones.toList.any (fun o => o.any (·.shows k)) = true ↔ s.Followed k := by
  simp only [List.any_eq_true, Vector.mem_toList_iff, Option.any_eq_true, Zone.shows_iff]
  constructor
  · rintro ⟨o, ho, y, hy, hs⟩
    obtain ⟨i, hi, rfl⟩ := Vector.mem_iff_getElem.mp ho
    exact ⟨⟨i, hi⟩, y, hy, hs⟩
  · rintro ⟨z, y, hy, hs⟩
    exact ⟨s.zones[z], Vector.getElem_mem _, y, hy, hs⟩

theorem State.followDrive_eq (s : State) (k : LineId) :
    s.followDrive k = if s.Followed k then .active else .inactive :=
  ite_congr (propext State.zones_show_iff) (fun _ => rfl) fun _ => rfl

theorem State.followDrive_ne_safe (s : State) (k : LineId) : s.followDrive k ≠ .safe := by
  rw [State.followDrive_eq]
  split <;> simp

/-- The drive that the mode code of an OUT_MODE gives a line (R132). -/
abbrev givenDrive (mode : Byte) (direct : Bool) (followed : Drive) : Drive :=
  if mode = 0 then (if direct then .active else .inactive) else if mode = 1 then followed else .inactive

theorem givenDrive_ne_safe {followed : Drive} (hf : followed ≠ .safe) (mode : Byte) (direct : Bool) :
    givenDrive mode direct followed ≠ .safe := by
  rw [givenDrive]
  split
  · cases direct <;> simp
  · split
    · exact hf
    · simp

/-- A line after an accepted OUT_MODE, field by field (R120, R132). -/
theorem OutLine.setUp_eq {followed : Drive} (hf : followed ≠ .safe) (l : OutLine) (mode polarity : Byte) (width : Half)
    (retrigger : Byte) :
    l.setUp (givenSetup mode polarity width retrigger) followed =
      { l with
        mode := if mode = 0 then .direct else if mode = 1 then .follow else .pulse
        polarity := if polarity = 0 then .activeHigh else .activeLow
        width := width
        retrigger := if retrigger = 1 then .restart else .ignore
        timer := none
        drive := givenDrive mode l.direct followed
        pin :=
          if givenDrive mode l.direct followed = .active then decide (polarity = 0) else decide (polarity ≠ 0) } := by
  rw [← pinLevel_of_code (givenDrive_ne_safe hf mode l.direct) polarity l.safe]
  by_cases h0 : mode = 0
  · simp only [OutLine.setUp, givenDrive, if_pos h0]; rfl
  · by_cases h1 : mode = 1
    · simp only [OutLine.setUp, givenDrive, if_neg h0, if_pos h1]; rfl
    · simp only [OutLine.setUp, givenDrive, if_neg h0, if_neg h1]; rfl

/-! ## The checks of OUT_MODE in the order of R131, and the effects of R132 -/

theorem exec_outMode (h : Head) (line mode polarity : Byte) (width : Half) (retrigger : Byte) (s : State) :
    exec (.outMode h line mode polarity width retrigger) s =
      .next (s.happening fun t => t.request h .outMode (actOutMode h.port line mode polarity width retrigger)) := rfl

theorem exec_outSet (h : Head) (line level : Byte) (s : State) :
    exec (.outSet h line level) s =
      .next (s.happening fun t => t.request h .outSet (actOutSet h.port line level)) := rfl

section
variable {s : State} {p : PortId} {line mode polarity retrigger level : Byte} {width : Half} {k : LineId}

/-- Check 1: a line number above 5. -/
theorem actOutMode_of_no_line (hl : 6 ≤ line.toNat) :
    actOutMode p line mode polarity width retrigger s = s.refuse .badArg := by
  simp only [actOutMode, lineOf_eq_none (Nat.not_le.mpr hl)]

/-- Check 2: a line that another or nobody holds. -/
theorem actOutMode_of_not_held (hl : line.toNat = k) (hh : s.holder (lineRes k) ≠ some p) :
    actOutMode p line mode polarity width retrigger s = s.refuse .notHolder := by
  simp only [actOutMode, lineOf_eq_some_of_toNat hl, if_pos hh]

/-- Check 3: a field outside its codes, or a width of 0. -/
theorem actOutMode_of_not_known (hl : line.toNat = k) (hh : s.holder (lineRes k) = some p)
    (hk : ¬ LineFieldsKnown mode polarity width retrigger) :
    actOutMode p line mode polarity width retrigger s = s.refuse .badArg := by
  simp only [actOutMode, lineOf_eq_some_of_toNat hl, if_neg (not_not_intro hh), lineSetupOf_eq, if_neg hk]

/-- Every check passed: the line is set up and its drive reported. -/
theorem actOutMode_of_accepted (hl : line.toNat = k) (hh : s.holder (lineRes k) = some p)
    (hk : LineFieldsKnown mode polarity width retrigger) :
    actOutMode p line mode polarity width retrigger s =
      (s.setLine k ((s.lines[k]).setUp (givenSetup mode polarity width retrigger) (s.followDrive k))).doneWith
        (.drive ((s.lines[k]).setUp (givenSetup mode polarity width retrigger) (s.followDrive k)).drive) := by
  simp only [actOutMode, lineOf_eq_some_of_toNat hl, if_neg (not_not_intro hh), lineSetupOf_eq, if_pos hk]

/-! ## The checks of OUT_SET in the order of R133, and its effects -/

/-- Check 1: a line number above 5. -/
theorem actOutSet_of_no_line (hl : 6 ≤ line.toNat) : actOutSet p line level s = s.refuse .badArg := by
  simp only [actOutSet, lineOf_eq_none (Nat.not_le.mpr hl)]

/-- Check 2: a line that another or nobody holds. -/
theorem actOutSet_of_not_held (hl : line.toNat = k) (hh : s.holder (lineRes k) ≠ some p) :
    actOutSet p line level s = s.refuse .notHolder := by
  simp only [actOutSet, lineOf_eq_some_of_toNat hl, if_pos hh]

/-- Check 3: a level other than 0 and 1. -/
theorem actOutSet_of_no_level (hl : line.toNat = k) (hh : s.holder (lineRes k) = some p) (hv : 2 ≤ level.toNat) :
    actOutSet p line level s = s.refuse .badArg := by
  simp only [actOutSet, lineOf_eq_some_of_toNat hl, if_neg (not_not_intro hh), yesNoOf_eq,
    if_neg (Nat.not_le.mpr hv)]

/-- Check 4: a line in FOLLOW or PULSE. -/
theorem actOutSet_of_wrong_mode (hl : line.toNat = k) (hh : s.holder (lineRes k) = some p) (hv : level.toNat ≤ 1)
    (hm : (s.lines[k]).mode ≠ .direct) : actOutSet p line level s = s.refuse .wrongMode := by
  simp only [actOutSet, lineOf_eq_some_of_toNat hl, if_neg (not_not_intro hh), yesNoOf_eq, if_pos hv, if_pos hm]

/-- Every check passed: the direct level is stored and driven. -/
theorem actOutSet_of_accepted (hl : line.toNat = k) (hh : s.holder (lineRes k) = some p) (hv : level.toNat ≤ 1)
    (hm : (s.lines[k]).mode = .direct) :
    actOutSet p line level s =
      (s.setLine k
        (({ s.lines[k] with direct := decide (level.toNat = 1) } : OutLine).driven
          (if decide (level.toNat = 1) then .active else .inactive))).done := by
  simp only [actOutSet, lineOf_eq_some_of_toNat hl, if_neg (not_not_intro hh), yesNoOf_eq, if_pos hv,
    if_neg (not_not_intro hm), OutLine.directDrive]

end

end Sys2Proof.Machine
end

section
/-! SUPPORT. The statements about the output requests, settled. -/

namespace Sys2Proof.Machine

/-- Settles O41, check by check in the order of R131; the accepted request posts nothing, so no AWAIT ends. -/
theorem outModeConfiguresTheLine : Obligations.OutModeConfiguresTheLine := by
  intro h line mode polarity width retrigger s ha
  dsimp only
  simp only [exec_outMode]
  refine ⟨fun hl => ?_, fun k hl => ?_⟩
  · rw [State.happening_request_refused ha (actOutMode_of_no_line hl)]
  by_cases hh : s.holder (lineRes k) = some h.port
  · by_cases hk : LineFieldsKnown mode polarity width retrigger
    · have hact := actOutMode_of_accepted (s := s.frameAccepted h.port) hl hh hk
      rw [OutLine.setUp_eq (State.followDrive_ne_safe _ k), State.followDrive_eq] at hact
      rw [if_neg (not_not_intro hh), if_neg (not_not_intro hk),
        State.happening_request_answered_of_queues ha hact rfl]
      rfl
    · rw [if_neg (not_not_intro hh), if_pos hk, State.happening_request_refused ha (actOutMode_of_not_known hl hh hk)]
  · rw [if_pos hh, State.happening_request_refused ha (actOutMode_of_not_held hl hh)]

/-- Settles O42, check by check in the order of R133; the accepted request posts nothing, so no AWAIT ends. -/
theorem outSetDrivesTheLevel : Obligations.OutSetDrivesTheLevel := by
  intro h line level s ha
  dsimp only
  simp only [exec_outSet]
  refine ⟨fun hl => ?_, fun k hl => ?_⟩
  · rw [State.happening_request_refused ha (actOutSet_of_no_line hl)]
  by_cases hh : s.holder (lineRes k) = some h.port
  · rw [if_neg (not_not_intro hh)]
    by_cases hv : 2 ≤ level.toNat
    · rw [if_pos hv, State.happening_request_refused ha (actOutSet_of_no_level hl hh hv)]
    · have hv1 : level.toNat ≤ 1 := by omega
      rw [if_neg hv]
      by_cases hm : (s.lines[k]).mode = .direct
      · have hon : decide (level.toNat = 1) = decide (level = 1) := decide_eq_decide.mpr (by bv_omega)
        have hact := actOutSet_of_accepted (s := s.frameAccepted h.port) hl hh hv1 hm
        rw [hon, OutLine.driven, pinLevel_direct] at hact
        rw [if_neg (not_not_intro hm), State.happening_request_answered_of_queues ha hact rfl]
        rfl
      · rw [if_pos hm, State.happening_request_refused ha (actOutSet_of_wrong_mode hl hh hv1 hm)]
  · rw [if_pos hh, State.happening_request_refused ha (actOutSet_of_not_held hl hh)]

end Sys2Proof.Machine
end

section
/-! SUPPORT. Requests at once: every request command is one frame with one execution by its owning block, and what the
handling of a frame can leave, said once for all kinds (R155, R158, R159, R165, R166). -/

namespace Sys2Proof.Machine

/-! ## One reading of the request commands -/

/-- The execution that the owning block gives a request command; a command that is no request has none. -/
def requestAct : Instr → State → State × Reply
  | .chanConfig h c m md iv gu im => actChanConfig h.port c m md iv gu im
  | .chanPreset h c n t => actChanPreset h.port c n t
  | .chanHome h c x => actChanHome h.port c x
  | .chanClearFault h c => actChanClearFault h.port c
  | .chanRead _ c => actChanRead c
  | .timeRead _ => actTimeRead
  | .zoneCreate h z => actZoneCreate h.port z
  | .zoneArm h z => actZoneArm h.port z
  | .zoneDisarm h z => actZoneDisarm h.port z
  | .zoneDelete h z => actZoneDelete h.port z
  | .zoneRead _ z => actZoneRead z
  | .zoneList _ => actZoneList
  | .capture h m => actCapture h.port m
  | .capSubscribe h l e m => actCapSubscribe h.port l e m
  | .capPolicy h x => actCapPolicy h.port x
  | .capFetch h => actCapFetch h.port
  | .capAck h q => actCapAck h.port q
  | .capStatus h => actCapStatus h.port
  | .evtRead h n => actEvtRead h.port n
  | .evtAttn h x => actEvtAttn h.port x
  | .claim h r => actClaim h.port r
  | .release h r => actRelease h.port r
  | .claimList _ => actClaimList
  | .outMode h l m pol w rt => actOutMode h.port l m pol w rt
  | .outSet h l v => actOutSet h.port l v
  | .outRead _ l => actOutRead l
  | .openSession h x => actOpenSession h.port x
  | .closeSession h => actCloseSession h.port
  | .nop _ => actNop
  | .hubReset h => actHubReset h.port
  | .await h x => actAwait h.port h.tag x
  | .cancel h => actCancel h.port
  | .ident h => actIdent h.port
  | .portStatus h => actPortStatus h.port
  | _ => fun s => (s, none)

/-- The handling of a request command is the handling of its frame with its execution. -/
theorem runRequest_eq {i : Instr} {k : Kind} {h : Head} (hi : i.request? = some (k, h)) (s : State) :
    runRequest i s = s.request h k (requestAct i) := by
  cases i <;> cases hi <;> rfl

/-- A command that is neither a request nor a frame of unknown kind has no handling. -/
theorem runRequest_of_no_request {i : Instr} (hi : i.request? = none) (hu : ∀ h code, i ≠ .unknownRequestKind h code)
    (s : State) : runRequest i s = s := by
  cases i with
  | unknownRequestKind h code => exact absurd rfl (hu h code)
  | _ => cases hi <;> rfl

/-- A request command is one happening: the handling of its frame. -/
theorem exec_request {i : Instr} {k : Kind} {h : Head} (hi : i.request? = some (k, h)) (s : State) :
    exec i s = .next (s.happening fun t => t.request h k (requestAct i)) := by
  cases i <;> cases hi <;> rfl

/-- A request command is one happening: its handling. -/
theorem exec_request_run {i : Instr} {k : Kind} {h : Head} (hi : i.request? = some (k, h)) (s : State) :
    exec i s = .next (s.happening (runRequest i)) := by
  cases i <;> cases hi <;> rfl

/-! ## What the handling of a frame leaves -/

/-- The refusals of the port and the session before any block is reached (R166, checks 4 to 6). -/
def Declines (status : Status) (results : Results) : Prop :=
  (status = .badRequest ∨ status = .badLength ∨ status = .wrongEpoch) ∧ results = .none ∨
    status = .noSession ∧ ∃ c, results = .closeCause c

/-- What the handling of a frame leaves, by the checks of R166 in their order: the frame is not taken; it is an overrun;
its tag is replayed; the port is busy; the request is declined; or it is executed. -/
inductive Handled (s : State) (h : Head) (code : Half) (executes : State → Prop) : State → Prop
  | discarded (hn : s.takesFrame h = false) : Handled s h code executes s
  | overrun (ht : s.takesFrame h = true) :
    Handled s h code executes ((s.frameAccepted h.port).setPort h.port
      { s.ports[h.port] with receiver := .hunt, gapTimer := none, overruns := satInc (s.ports[h.port]).overruns })
  | replayed (r : Response) (ht : s.takesFrame h = true) (hw : (s.ports[h.port]).waiting.length ≤ 2)
    (hr : r ∈ (s.ports[h.port]).cache) :
    Handled s h code executes ((s.frameAccepted h.port).send h.port { r with replay := true })
  | busy (ht : s.takesFrame h = true) (hw : (s.ports[h.port]).waiting.length ≤ 2) :
    Handled s h code executes ((s.frameAccepted h.port).send h.port ⟨h.tag, .busy, false, code, .none⟩)
  | declined (status : Status) (results : Results) (ht : s.takesFrame h = true)
    (hw : (s.ports[h.port]).waiting.length ≤ 2) (hd : Declines status results) :
    Handled s h code executes ((s.frameAccepted h.port).answer h.port h.tag code status results)
  | executed (t : State) (he : executes t) : Handled s h code executes t

theorem Session.refusal_declines {x : Session} {k : Kind} {epoch : Byte} {status : Status} {results : Results}
    (hr : x.refusal k epoch = some (status, results)) : Declines status results := by
  rw [Session.refusal] at hr
  split at hr
  · split at hr
    · cases hr
    · cases hr; exact .inl ⟨.inr (.inr rfl), rfl⟩
  · split at hr
    · cases hr
    · cases hr; exact .inr ⟨rfl, _, rfl⟩

/-- A session passes a kind and an epoch exactly when it is the kind's to pass (R139, R140). -/
theorem Session.refusal_eq_none {x : Session} {k : Kind} {epoch : Byte} :
    x.refusal k epoch = none ↔
      if x.isOpen then k = .openSession ∨ epoch = x.epoch else k = .openSession ∨ k = .ident ∨ k = .portStatus := by
  rw [Session.refusal]
  by_cases ho : x.isOpen = true
  · simp [ho, or_iff_not_imp_left]
  · simp [ho, or_iff_not_imp_left]

/-- A frame that a port takes has LRST_n released and a body that the receiver accepts (R155, R158). -/
theorem State.takesFrame_iff {s : State} {h : Head} :
    s.takesFrame h = true ↔ (s.ports[h.port]).lrst = false ∧ 4 ≤ h.len ∧ h.len ≤ 40 := by
  rw [State.takesFrame, Bool.and_eq_true, Bool.not_eq_true', decide_eq_true_eq]; rfl

/-- The port of an accepted frame. -/
theorem State.frameAccepted_port (s : State) (p : PortId) :
    (s.frameAccepted p).ports[p] = { s.ports[p] with receiver := .hunt, gapTimer := none } := by simp

/-- The session of an accepted frame. -/
theorem State.frameAccepted_session (s : State) (p : PortId) :
    (s.frameAccepted p).sessions[p] = (s.sessions[p]).restarted := by simp

theorem Port.replayOf_eq_some {x : Port} {tag : Byte} {r : Response} :
    x.replayOf tag = some r ↔ x.cache = some r ∧ r.tag = tag := by
  simp only [Port.replayOf, Option.filter_eq_some_iff, beq_iff_eq]

theorem Port.replayOf_eq_none {x : Port} {tag : Byte} : x.replayOf tag = none ↔ ∀ r ∈ x.cache, r.tag ≠ tag := by
  simp only [Port.replayOf, Option.filter_eq_none_iff, beq_iff_eq, Option.mem_def]

/-- What the handling of a request frame leaves; it is executed exactly when it is admitted. -/
theorem State.request_handled (s : State) (h : Head) (k : Kind) (act : State → State × Reply) :
    Handled s h k.code (fun t => Admitted s h k ∧ t = (s.frameAccepted h.port).execute h k act)
      (s.request h k act) := by
  by_cases ht : s.takesFrame h = true
  swap
  · rw [State.request, if_neg ht]; exact .discarded (by simpa using ht)
  obtain ⟨hl, -⟩ := State.takesFrame_iff.mp ht
  rw [State.request, if_pos ht, State.admitKnown]
  simp only [State.frameAccepted_port, State.frameAccepted_session]
  by_cases hw : Config.overrunAt ≤ (s.ports[h.port]).waiting.length
  · rw [if_pos hw]
    exact .overrun ht
  have hw2 : (s.ports[h.port]).waiting.length ≤ 2 := by simp only [Config.overrunAt] at hw; omega
  rw [if_neg hw]
  split
  · rename_i r hr
    exact .replayed r ht hw2 (Port.replayOf_eq_some.mp hr).1
  rename_i hr
  by_cases hb : (s.ports[h.port]).awaiting.isSome = true ∧ k ≠ .cancel
  · rw [if_pos hb]; exact .busy ht hw2
  rw [if_neg hb]
  by_cases hn : h.len ≠ k.bodyLen
  · rw [if_pos hn]; exact .declined _ _ ht hw2 (.inl ⟨.inr (.inl rfl), rfl⟩)
  rw [if_neg hn]
  split
  · rename_i status results hs
    exact .declined _ _ ht hw2 (Session.refusal_declines hs)
  · rename_i hs
    have hidle : (s.ports[h.port]).awaiting = none ∨ k = .cancel := by
      rw [← not_and_or.trans (or_congr Option.not_isSome_iff_eq_none not_not)]; simpa using hb
    refine .executed _ ⟨⟨hl, hw2, Port.replayOf_eq_none.mp hr, hidle, not_not.mp hn, ?_⟩, rfl⟩
    simpa using Session.refusal_eq_none.mp hs

/-- What the handling of a frame of unknown kind leaves; it is never executed. -/
theorem State.unknownRequest_handled (s : State) (h : Head) (code : Half) :
    Handled s h code (fun _ => False) (s.unknownRequest h code) := by
  by_cases ht : s.takesFrame h = true
  swap
  · rw [State.unknownRequest, if_neg ht]; exact .discarded (by simpa using ht)
  rw [State.unknownRequest, if_pos ht, State.admitUnknown]
  simp only [State.frameAccepted_port]
  by_cases hw : Config.overrunAt ≤ (s.ports[h.port]).waiting.length
  · rw [if_pos hw]
    exact .overrun ht
  have hw2 : (s.ports[h.port]).waiting.length ≤ 2 := by simp only [Config.overrunAt] at hw; omega
  rw [if_neg hw]
  split
  · rename_i r hr
    exact .replayed r ht hw2 (Port.replayOf_eq_some.mp hr).1
  by_cases hb : (s.ports[h.port]).awaiting.isSome = true
  · rw [if_pos hb]; exact .busy ht hw2
  · rw [if_neg hb]; exact .declined _ _ ht hw2 (.inl ⟨.inl rfl, rfl⟩)

end Sys2Proof.Machine
end

section
/-! SUPPORT. What the owning blocks can make of the hub, and the invariants of the blocks: a law that does not speak of
the ports is kept by every step once each block's own moves keep it. -/

namespace Sys2Proof.Machine

/-! ## The moves of the owning blocks -/

/-- What the owning block of an executed request can make of the hub, kind by kind, with the checks that have passed;
the second part is the answer, none for an AWAIT that waits. -/
inductive Effect (p : PortId) (s : State) : Kind → State × Reply → Prop
  | unchanged (k : Kind) (r : Status × Results) : Effect p s k (s, some r)
  | chanConfig (c : ChanId) (f : ChanSetup) (r : Status × Results)
    (hm : f.modulus ≠ 1 ∧ f.modulus ≤ Config.maxModulus) (hh : s.holder (chanRes c) = some p)
    (hu : s.configInUse c f = false) : Effect p s .chanConfig (s.configure p c f, some r)
  | chanPreset (c : ChanId) (count : Word) (turns : Half) (r : Status × Results)
    (hh : s.holder (chanRes c) = some p) (hm : (s.channels[c]).mode ≠ .off)
    (hr : (s.channels[c]).presetInRange count.toInt turns.toInt = true) :
    Effect p s .chanPreset (s.preset p c count.toInt turns.toInt, some r)
  | chanHome (c : ChanId) (x : Bool) (r : Status × Results) (hh : s.holder (chanRes c) = some p)
    (ho : (s.channels[c]).state ≠ .off) (hf : (s.channels[c]).state ≠ .fault) :
    Effect p s .chanHome (s.setChannel c { s.channels[c] with homing := x }, some r)
  | chanClearFault (c : ChanId) (r : Status × Results) (hh : s.holder (chanRes c) = some p) :
    Effect p s .chanClearFault (s.clearFault c, some r)
  | zoneCreate (z : ZoneId) (c : ChanId) (q : ZoneParams) (x : Zone) (r : Status × Results) (hz : s.zones[z] = none)
    (hm : (s.channels[c]).mode ≠ .off) (hx : newZone p c (s.channels[c]).modulus q = some x)
    (hl : s.linkHeld p x.link = true) :
    Effect p s .zoneCreate ((s.setZone z (some (s.rawEvaluated x))).recomputeLink x.link, some r)
  | zoneArm (z : ZoneId) (x : Zone) (r : Status × Results) (hz : s.zones[z] = some x) (ho : x.owner = p) :
    Effect p s .zoneArm
      ((s.setZone z (some (s.rawEvaluated { x with armed := true }))).recomputeLink x.link, some r)
  | zoneDisarm (z : ZoneId) (x : Zone) (r : Status × Results) (hz : s.zones[z] = some x) (ho : x.owner = p) :
    Effect p s .zoneDisarm
      ((s.setZone z (some { x with armed := false, state := .idle })).recomputeLink x.link, some r)
  | zoneDelete (z : ZoneId) (x : Zone) (r : Status × Results) (hz : s.zones[z] = some x) (ho : x.owner = p) :
    Effect p s .zoneDelete ((s.setZone z none).recomputeLink x.link, some r)
  | capture (mask : Byte) (r : Status × Results) (hm : mask ≠ 0) :
    Effect p s .capture ((s.takeCapture p .request mask).1, some r)
  | capSubscribe (n : CapId) (u : Option Subscription) (r : Status × Results) (hu : ∀ x ∈ u, x.mask ≠ 0) :
    Effect p s .capSubscribe
      (s.setCapture p { s.capture[p] with subs := (s.capture[p]).subs.set n u }, some r)
  | capPolicy (x : Policy) (r : Status × Results) :
    Effect p s .capPolicy (s.setCapture p { s.capture[p] with policy := x }, some r)
  | capAck (oldest : CaptureRecord) (rest : List CaptureRecord) (r : Status × Results)
    (hr : (s.capture[p]).ring = oldest :: rest) :
    Effect p s .capAck (s.setCapture p { s.capture[p] with ring := rest }, some r)
  | capStatus (r : Status × Results) :
    Effect p s .capStatus (s.setCapture p { s.capture[p] with lost := 0, lossReported := false }, some r)
  | evtRead (n : Nat) (r : Status × Results) :
    Effect p s .evtRead
      (s.setQueue p (((s.queues[p]).readOut (s.sessions[p]).isOpen n s.timestamp).attend (s.sessions[p]).isOpen),
        some r)
  | evtAttn (x : Bool) (r : Status × Results) :
    Effect p s .evtAttn
      (s.setQueue p (({ s.queues[p] with enabled := x } : EventQueue).attend (s.sessions[p]).isOpen), some r)
  | claim (e : ResId) (r : Status × Results) (hc : s.claims[e] = none) :
    Effect p s .claim ((s.setClaim e (some ⟨p, s.timestamp⟩)).claimedDrive e, some r)
  | release (e : ResId) (r : Status × Results) (hh : s.holder e = some p) (hu : s.releaseInUse e = false) :
    Effect p s .release (s.freeClaim p e, some r)
  | outMode (k : LineId) (f : LineSetup) (r : Status × Results) (hh : s.holder (lineRes k) = some p)
    (hw : f.width ≠ 0) : Effect p s .outMode (s.setLine k ((s.lines[k]).setUp f (s.followDrive k)), some r)
  | outSet (k : LineId) (x : Bool) (r : Status × Results) (hh : s.holder (lineRes k) = some p)
    (hm : (s.lines[k]).mode = .direct) :
    Effect p s .outSet
      (s.setLine k (({ s.lines[k] with direct := x } : OutLine).driven (if x then .active else .inactive)), some r)
  | openSession (n : Byte) (r : Status × Results) (hc : (s.sessions[p]).isOpen = false) :
    Effect p s .openSession
      (((s.setSession p ((s.sessions[p]).opened n)).setCapture p CaptureState.fresh).setQueue p EventQueue.fresh,
        some r)
  | closeSession (r : Status × Results) : Effect p s .closeSession (s.teardown p .closed, some r)
  | hubReset (r : Status × Results) (hh : s.heldByOther p = none) : Effect p s .hubReset (s.hubReset p, some r)
  | await (tag timeout : Byte) (hq : (s.queues[p]).records = []) :
    Effect p s .await
      ((s.setPort p { s.ports[p] with awaiting := some ⟨tag, timeout, timeout.toNat * Config.tenMs⟩ }).setSession p
        { s.sessions[p] with timer := .suspended }, none)
  | cancel (a : Awaiting) (r : Status × Results) (ha : (s.ports[p]).awaiting = some a) :
    Effect p s .cancel ((s.send p ⟨a.tag, .cancelled, false, Kind.await.code, .none⟩).stopAwait p, some r)
  | portStatus (r : Status × Results) :
    Effect p s .portStatus
      (s.setPort p { s.ports[p] with crcErrors := 0, framingErrors := 0, overruns := 0 }, some r)

theorem chanSetupOf_modulus {mode : Byte} {modulus : Word} {invert gateUse indexMark : Byte} {f : ChanSetup}
    (hf : chanSetupOf mode modulus invert gateUse indexMark = some f) :
    f.modulus ≠ 1 ∧ f.modulus ≤ Config.maxModulus := by
  have hk : ChanFieldsKnown mode modulus invert gateUse indexMark := by
    by_contra hk
    rw [chanSetupOf_of_not_known hk] at hf; cases hf
  obtain ⟨m, hm⟩ := chanModeOf_isSome.mpr hk.1
  rw [chanSetupOf_of_known hk hm] at hf
  cases hf
  exact ⟨hk.2.1, hk.2.2.1⟩

theorem State.zones_of_freeSlot {s : State} {z : ZoneId} (h : s.freeSlot = some z) : s.zones[z] = none := by
  rw [State.freeSlot] at h
  simpa using List.find?_some h

/-- The checks of R53 passed leave the request on a zone of the requester; failed, they leave the hub unchanged. -/
theorem State.withOwnZone_effect {p : PortId} {s : State} {k : Kind} {zone : Byte} {f : ZoneId → Zone → State × Reply}
    (hf : ∀ z x, s.zones[z] = some x → x.owner = p → Effect p s k (f z x)) :
    Effect p s k (s.withOwnZone p zone f) := by
  rw [State.withOwnZone]
  split
  · exact .unchanged _ _
  · rename_i z x hz
    by_cases ho : x.owner = p
    · rw [if_pos ho]
      refine hf z x ?_ ho
      rw [State.zoneNamed] at hz
      split at hz
      · obtain ⟨y, hy, hyz⟩ := Option.map_eq_some_iff.mp hz
        cases hyz; exact hy
      · cases hz
    · rw [if_neg ho]; exact .unchanged _ _

/-- The execution of a request is one of its block's moves. -/
theorem requestAct_effect {i : Instr} {k : Kind} {h : Head} (hi : i.request? = some (k, h)) (s : State) :
    Effect h.port s k (requestAct i s) := by
  cases i with
  | chanConfig h c m md iv gu im =>
    cases hi; simp only [requestAct, actChanConfig]
    split
    · exact .unchanged _ _
    split
    · exact .unchanged _ _
    rename_i hh
    split
    · exact .unchanged _ _
    rename_i f hf
    split
    · exact .unchanged _ _
    · rename_i hu
      exact .chanConfig _ f _ (chanSetupOf_modulus hf) (not_not.mp hh) (by simpa using hu)
  | chanPreset h c n t =>
    cases hi; simp only [requestAct, actChanPreset]
    split
    · exact .unchanged _ _
    split
    · exact .unchanged _ _
    rename_i hh
    split
    · exact .unchanged _ _
    rename_i hm
    split
    · rename_i hr; exact .chanPreset _ _ _ _ (not_not.mp hh) hm hr
    · exact .unchanged _ _
  | chanHome h c x =>
    cases hi; simp only [requestAct, actChanHome]
    split
    · exact .unchanged _ _
    split
    · exact .unchanged _ _
    rename_i hh
    split
    · exact .unchanged _ _
    rename_i ho
    split
    · exact .unchanged _ _
    rename_i hf
    split
    · exact .unchanged _ _
    · exact .chanHome _ _ _ (not_not.mp hh) ho hf
  | chanClearFault h c =>
    cases hi; simp only [requestAct, actChanClearFault]
    split
    · exact .unchanged _ _
    split
    · exact .unchanged _ _
    · rename_i hh; exact .chanClearFault _ _ (not_not.mp hh)
  | chanRead h c => cases hi; simp only [requestAct, actChanRead]; split <;> exact .unchanged _ _
  | timeRead h => cases hi; exact .unchanged _ _
  | zoneCreate h q =>
    cases hi; simp only [requestAct, actZoneCreate]
    split
    · exact .unchanged _ _
    rename_i z hz
    split
    · exact .unchanged _ _
    split
    · exact .unchanged _ _
    rename_i hm
    split
    · exact .unchanged _ _
    rename_i x hx
    split
    · rename_i hl; exact .zoneCreate z _ q x _ (State.zones_of_freeSlot hz) hm hx hl
    · exact .unchanged _ _
  | zoneArm h z =>
    cases hi
    refine State.withOwnZone_effect fun z x hz ho => ?_
    dsimp only
    split
    · exact .unchanged _ _
    · exact .zoneArm z x _ hz ho
  | zoneDisarm h z =>
    cases hi
    refine State.withOwnZone_effect fun z x hz ho => ?_
    split
    · exact .zoneDisarm z x _ hz ho
    · exact .unchanged _ _
  | zoneDelete h z => cases hi; exact State.withOwnZone_effect fun z x hz ho => .zoneDelete z x _ hz ho
  | zoneRead h z => cases hi; simp only [requestAct, actZoneRead]; split <;> exact .unchanged _ _
  | zoneList h => cases hi; exact .unchanged _ _
  | capture h m =>
    cases hi; simp only [requestAct, actCapture]
    split
    · exact .unchanged _ _
    rename_i hm
    split
    · rename_i t q ht
      obtain rfl : (s.takeCapture h.port .request m).1 = t := congrArg Prod.fst ht
      exact .capture m _ hm
    · rename_i t ht
      obtain rfl : (s.takeCapture h.port .request m).1 = t := congrArg Prod.fst ht
      exact .capture m _ hm
  | capSubscribe h l e m =>
    cases hi; simp only [requestAct, actCapSubscribe]
    split
    · refine .capSubscribe _ _ _ fun x hx => ?_
      split at hx
      · cases hx
      · rename_i hm; cases hx; exact hm
    · exact .unchanged _ _
  | capPolicy h x =>
    cases hi; simp only [requestAct, actCapPolicy]
    split
    · exact .capPolicy _ _
    · exact .unchanged _ _
  | capFetch h => cases hi; simp only [requestAct, actCapFetch]; split <;> exact .unchanged _ _
  | capAck h q =>
    cases hi; simp only [requestAct, actCapAck]
    split
    · exact .unchanged _ _
    rename_i r rest hr
    split
    · exact .capAck r rest _ hr
    · exact .unchanged _ _
  | capStatus h => cases hi; exact .capStatus _
  | evtRead h n =>
    cases hi; simp only [requestAct, actEvtRead]
    split
    · exact .unchanged _ _
    · exact .evtRead _ _
  | evtAttn h x =>
    cases hi; simp only [requestAct, actEvtAttn]
    split
    · exact .unchanged _ _
    · exact .evtAttn _ _
  | claim h r =>
    cases hi; simp only [requestAct, actClaim]
    split
    · exact .unchanged _ _
    split
    · split <;> exact .unchanged _ _
    · rename_i hc; exact .claim _ _ hc
  | release h r =>
    cases hi; simp only [requestAct, actRelease]
    split
    · exact .unchanged _ _
    split
    · exact .unchanged _ _
    rename_i hh
    split
    · exact .unchanged _ _
    · rename_i hu; exact .release _ _ (not_not.mp hh) (by simpa using hu)
  | claimList h => cases hi; exact .unchanged _ _
  | outMode h l m pol w rt =>
    cases hi; simp only [requestAct, actOutMode]
    split
    · exact .unchanged _ _
    split
    · exact .unchanged _ _
    rename_i hh
    rw [lineSetupOf_eq]
    split
    · exact .unchanged _ _
    · rename_i f hf
      simp only [Option.ite_none_right_eq_some, Option.some.injEq] at hf
      obtain ⟨⟨-, -, hw, -⟩, rfl⟩ := hf
      exact .outMode _ _ _ (not_not.mp hh) hw
  | outSet h l v =>
    cases hi; simp only [requestAct, actOutSet]
    split
    · exact .unchanged _ _
    split
    · exact .unchanged _ _
    rename_i hh
    split
    · exact .unchanged _ _
    split
    · exact .unchanged _ _
    · rename_i hm; exact .outSet _ _ _ (not_not.mp hh) (not_not.mp hm)
  | outRead h l => cases hi; simp only [requestAct, actOutRead]; split <;> exact .unchanged _ _
  | openSession h x =>
    cases hi; simp only [requestAct, actOpenSession]
    split
    · exact .unchanged _ _
    rename_i hc
    split
    · exact .unchanged _ _
    · exact .openSession _ _ (by simpa using hc)
  | closeSession h => cases hi; exact .closeSession _
  | nop h => cases hi; exact .unchanged _ _
  | hubReset h =>
    cases hi; simp only [requestAct, actHubReset]
    split
    · exact .unchanged _ _
    · rename_i hh; exact .hubReset _ hh
  | await h x =>
    cases hi; simp only [requestAct, actAwait]
    split
    · exact .unchanged _ _
    split
    · exact .unchanged _ _
    · rename_i hq; exact .await _ _ (not_not.mp hq)
  | cancel h =>
    cases hi; simp only [requestAct, actCancel]
    split
    · exact .unchanged _ _
    · rename_i a ha; exact .cancel a _ ha
  | ident h => cases hi; exact .unchanged _ _
  | portStatus h => cases hi; exact .portStatus _
  | _ => cases hi

/-! ## Changes at the ports alone -/

/-- Two hubs differ at their ports alone: in the port records and the silence timers, epochs and causes of the sessions,
not in which sessions are OPEN. -/
structure PortsOnly (s t : State) : Prop where
  frame : t = { s with ports := t.ports, sessions := t.sessions }
  isOpen : ∀ q : PortId, (t.sessions[q]).isOpen = (s.sessions[q]).isOpen

namespace PortsOnly
variable {s t u : State}

theorem timestamp (h : PortsOnly s t) : t.timestamp = s.timestamp :=
  (congrArg State.timestamp h.frame).trans rfl
theorem channels (h : PortsOnly s t) : t.channels = s.channels :=
  (congrArg State.channels h.frame).trans rfl
theorem zones (h : PortsOnly s t) : t.zones = s.zones :=
  (congrArg State.zones h.frame).trans rfl
theorem capture (h : PortsOnly s t) : t.capture = s.capture :=
  (congrArg State.capture h.frame).trans rfl
theorem queues (h : PortsOnly s t) : t.queues = s.queues :=
  (congrArg State.queues h.frame).trans rfl
theorem claims (h : PortsOnly s t) : t.claims = s.claims :=
  (congrArg State.claims h.frame).trans rfl
theorem lines (h : PortsOnly s t) : t.lines = s.lines :=
  (congrArg State.lines h.frame).trans rfl
theorem pending (h : PortsOnly s t) : t.pending = s.pending :=
  (congrArg State.pending h.frame).trans rfl

theorem refl (s : State) : PortsOnly s s := ⟨rfl, fun _ => rfl⟩

theorem trans (h : PortsOnly s t) (g : PortsOnly t u) : PortsOnly s u :=
  ⟨by rw [g.frame, h.frame], fun q => (g.isOpen q).trans (h.isOpen q)⟩

theorem setPort (s : State) (p : PortId) (x : Port) : PortsOnly s (s.setPort p x) := ⟨rfl, fun _ => rfl⟩

theorem setSession {p : PortId} {x : Session} (hx : x.isOpen = (s.sessions[p]).isOpen) :
    PortsOnly s (s.setSession p x) := by
  refine ⟨rfl, fun q => ?_⟩
  simp only [State.setSession_sessions, Fin.getElem_fin, Vector.getElem_set]
  split
  · rename_i hq; rw [hx, Fin.ext hq]; rfl
  · rfl

theorem frameAccepted (s : State) (p : PortId) : PortsOnly s (s.frameAccepted p) :=
  (setPort s p _).trans (setSession (Session.restarted_isOpen _))

theorem answer (s : State) (p : PortId) (tag : Byte) (k : Half) (status : Status) (results : Results) :
    PortsOnly s (s.answer p tag k status results) := by
  rw [State.answer]
  dsimp only
  split <;> exact setPort s p _

theorem stopAwait (s : State) (p : PortId) : PortsOnly s (s.stopAwait p) := (setPort s p _).trans (setSession rfl)

theorem endAwait (s : State) (p : PortId) (status : Status) (results : Results) :
    PortsOnly s (s.endAwait p status results) := by
  rw [State.endAwait]
  split
  · exact (stopAwait s p).trans (answer _ p _ _ _ _)
  · exact refl s

theorem notify (s t : State) : PortsOnly t (s.notify t) := by
  have hf : ∀ (l : List PortId) (u : State), PortsOnly u (l.foldl (fun t' p =>
      if (s.queues[p]).records.length < (t.queues[p]).records.length then t'.endAwaitByStore p else t') u) := by
    intro l
    induction l with
    | nil => exact refl
    | cons p l ih =>
      intro u
      refine PortsOnly.trans ?_ (ih _)
      dsimp only
      split
      · exact endAwait u p _ _
      · exact refl u
  exact hf portIds t

theorem endAwaitByReset (s : State) (p : PortId) : PortsOnly s (s.endAwaitByReset p) := by
  rw [State.endAwaitByReset]
  split
  · exact refl s
  · split
    · exact (stopAwait s p).trans (setPort _ p _)
    · exact endAwait s p _ _

end PortsOnly

/-- The handling of a frame that is not executed changes the ports alone. -/
theorem Handled.cases_executed {s t : State} {h : Head} {code : Half} {executes : State → Prop}
    (ht : Handled s h code executes t) : PortsOnly s t ∨ executes t := by
  have ha := PortsOnly.frameAccepted s h.port
  cases ht with
  | discarded => exact .inl (.refl s)
  | overrun => exact .inl (ha.trans (.setPort _ _ _))
  | replayed => exact .inl (ha.trans (.setPort _ _ _))
  | busy => exact .inl (ha.trans (.setPort _ _ _))
  | declined => exact .inl (ha.trans (.answer _ _ _ _ _ _))
  | executed _ he => exact .inr he

/-! ## The bytes of a receive line, as moves -/

/-- A body that the receiver takes decodes to a request of its port, or to a frame of unknown kind on it. -/
theorem decodeRequest_cases (p : PortId) (body : List Byte) :
    (∃ k, (decodeRequest p body).request? = some (k, ⟨p, body.getD 0 0, body.getD 1 0, body.length⟩)) ∨
      ∃ code, Kind.ofCode code = none ∧
        decodeRequest p body = .unknownRequestKind ⟨p, body.getD 0 0, body.getD 1 0, body.length⟩ code := by
  unfold decodeRequest
  dsimp only
  split
  · rename_i hc; exact .inr ⟨_, hc, rfl⟩
  all_goals exact .inl ⟨_, rfl⟩

/-- A receiver found at the end of the bytes of a frame is lawful and not in HUNT (R158). -/
theorem frameAt_partialFrame {bytes : List Byte} {r : Receiver} (h : frameAt bytes = .partialFrame r) :
    r.lawful = true ∧ r ≠ .hunt := by
  unfold frameAt at h
  split at h
  · cases h; exact ⟨rfl, by simp⟩
  rename_i n rest
  split at h
  · cases h
  rename_i hn
  have hacc : lenAccepted n.toNat = true := by
    rw [lenAccepted, decide_eq_true_eq]; omega
  split at h
  · rename_i hd
    have hlen : rest.length ≤ n.toNat := List.drop_eq_nil_iff.mp hd
    cases h
    split
    · rename_i hlt; simp [Receiver.lawful, hacc, hlt]
    · rename_i hlt
      have : rest.length = n.toNat := by omega
      simp [Receiver.lawful, this, hacc]
  · rename_i hi hd
    cases h
    have : (rest.take n.toNat).length = n.toNat := by
      have := congrArg List.length hd
      simp only [List.length_drop, List.length_cons, List.length_nil] at this
      rw [List.length_take]; omega
    simp [Receiver.lawful, -List.length_take, this, hacc]
  · cases h

/-- What the moves of a receiver keep, the examination of a failed frame keeps (R160). -/
theorem examine_induction {P : State → Prop} {p : PortId}
    (hrec : ∀ t r, P t → r.lawful = true → r ≠ .hunt → P (t.setReceiver p r (some Config.frameGap)))
    (hfr : ∀ t, P t → P (t.framing p)) (hcrc : ∀ t, P t → P (t.crcError p))
    (hacc : ∀ t body, P t → P (t.acceptBody p body)) (bytes : List Byte) :
    ∀ (n : Nat) (s : State), P s → P (examine p n bytes s) := by
  induction bytes with
  | nil => intro n s hs; cases n <;> exact hs
  | cons b rest ih =>
    intro n s hs
    cases n with
    | succ n => exact ih n s hs
    | zero =>
      rw [examine]
      split
      · split
        · rename_i r hr
          obtain ⟨hl, hne⟩ := frameAt_partialFrame hr
          exact hrec s r hs hl hne
        · exact ih _ _ (hfr s hs)
        · split
          · exact ih _ _ (hacc s _ hs)
          · exact ih _ _ (hcrc s hs)
      · exact ih _ _ hs

/-- What the moves of a receiver keep, a byte from the line keeps (R158 to R160); a held port takes none. -/
theorem State.takeByte_induction {P : State → Prop} {p : PortId} {s : State} (b : Byte)
    (hrec : ∀ r, ((s.ports[p]).receiver.lawful = true → r.lawful = true) → r ≠ .hunt →
      P (s.setReceiver p r (some Config.frameGap)))
    (hfr : P (s.framing p)) (hacc : ∀ body, P (s.acceptBody p body))
    (hfail : ∀ body crc, P (s.crcFailed p body crc)) (hs : P s) : P (s.takeByte p b) := by
  rw [State.takeByte]
  split
  · exact hs
  split
  · split
    · exact hrec _ (fun _ => rfl) (by simp)
    · exact hs
  · split
    · exact hfr
    · rename_i hb
      refine hrec _ (fun _ => ?_) (by simp)
      have hacc : lenAccepted b.toNat = true := by rw [lenAccepted, decide_eq_true_eq]; omega
      have h4 : 0 < b.toNat := by simp only [Config.minBody] at hb; omega
      simp [Receiver.lawful, hacc, h4]
  · rename_i n taken hr
    refine hrec _ (fun hl => ?_) (by split <;> simp)
    rw [hr] at hl
    simp only [Receiver.lawful, Bool.and_eq_true, decide_eq_true_eq] at hl
    split
    · have : (taken ++ [b]).length = n := by simp only [List.length_append, List.length_singleton]; omega
      rw [Receiver.lawful, this]; exact hl.1
    · simp only [Receiver.lawful, hl.1, Bool.true_and, decide_eq_true_eq, List.length_append, List.length_singleton]
      omega
  · rename_i body hr
    exact hrec _ (fun hl => by rwa [hr] at hl) (by simp)
  · split
    · exact hacc _
    · exact hfail _ _

/-! ## Laws that do not speak of the ports -/

/-- The kinds that a CLOSED session passes (R139). -/
abbrev Opened (s : State) (p : PortId) (k : Kind) : Prop :=
  (s.sessions[p]).isOpen = true ∨ k = .openSession ∨ k = .ident ∨ k = .portStatus

/-- A law of the blocks: changes at the ports alone keep it, and so does each move of a block. -/
structure BlocksLaw (P : State → Prop) : Prop where
  ports : ∀ {s t}, PortsOnly s t → P s → P t
  effect : ∀ {p s k o}, Effect p s k o → Opened s p k → P s → P o.1
  poweredOn : ∀ s pins, P s → P (s.poweredOn pins)
  pair : ∀ s c change, P s → P (s.abTransition c change)
  index : ∀ s c, P s → P (s.indexTransition c)
  gate : ∀ s (c : ChanId), P s → P (s.setChannel c (s.channels[c]).gateChanged)
  edge : ∀ s n, P s → P (s.lineEdge n)
  pulse : ∀ s (k : LineId), (s.lines[k]).timer = some 0 → P s →
    P (s.setLine k (({ s.lines[k] with timer := none } : OutLine).driven .inactive))
  increment : ∀ s, P s → P s.increment
  teardown : ∀ s p cause, (s.sessions[p]).isOpen = true → P s → P (s.teardown p cause)

namespace BlocksLaw
variable {P : State → Prop} {s : State}

theorem execute (hP : BlocksLaw P) {i : Instr} {k : Kind} {h : Head} (hi : i.request? = some (k, h))
    (ho : Opened s h.port k) (hs : P s) : P (s.execute h k (requestAct i)) := by
  have he := hP.effect (requestAct_effect hi s) ho hs
  rw [State.execute]
  split
  · rename_i t st r ht
    rw [ht] at he; exact hP.ports (.answer _ _ _ _ _ _) he
  · rename_i t ht
    rw [ht] at he; exact he

theorem run (hP : BlocksLaw P) (i : Instr) (hs : P s) : P (runRequest i s) := by
  cases hi : i.request? with
  | some kh =>
    obtain ⟨k, h⟩ := kh
    rw [runRequest_eq hi]
    rcases (State.request_handled s h k (requestAct i)).cases_executed with hp | ⟨hadm, ht⟩
    · exact hP.ports hp hs
    · rw [ht]
      have hacc := PortsOnly.frameAccepted s h.port
      refine hP.execute hi ?_ (hP.ports hacc hs)
      obtain ⟨-, -, -, -, -, hpass⟩ := hadm
      rw [Opened, hacc.isOpen]
      by_cases ho : (s.sessions[h.port]).isOpen = true
      · exact .inl ho
      · rw [if_neg ho] at hpass; exact .inr hpass
  | none =>
    by_cases hu : ∃ h code, i = .unknownRequestKind h code
    · obtain ⟨h, code, rfl⟩ := hu
      rcases (State.unknownRequest_handled s h code).cases_executed with hp | hf
      · exact hP.ports hp hs
      · exact hf.elim
    · rw [runRequest_of_no_request hi fun h code e => hu ⟨h, code, e⟩]; exact hs

theorem crcFailed (hP : BlocksLaw P) (p : PortId) (body : List Byte) (crc : Half) (hs : P s) :
    P (s.crcFailed p body crc) :=
  examine_induction (fun _ _ ht _ _ => hP.ports (.setPort _ _ _) ht) (fun _ ht => hP.ports (.setPort _ _ _) ht)
    (fun _ ht => hP.ports (.setPort _ _ _) ht) (fun _ _ ht => hP.run _ ht) _ _ _ (hP.ports (.setPort _ _ _) hs)

theorem takeByte (hP : BlocksLaw P) (p : PortId) (b : Byte) (hs : P s) : P (s.takeByte p b) :=
  State.takeByte_induction b (fun _ _ _ => hP.ports (.setPort _ _ _) hs) (hP.ports (.setPort _ _ _) hs)
    (fun _ => hP.run _ hs) (fun _ _ => hP.crcFailed p _ _ hs) hs

theorem happening (hP : BlocksLaw P) {f : State → State} (hf : P (f s)) : P (s.happening f) :=
  hP.ports (.notify s (f s)) hf

theorem lrstAsserted (hP : BlocksLaw P) (p : PortId) (hs : P s) : P (s.lrstAsserted p) := by
  rw [State.lrstAsserted]
  split
  · exact hs
  · refine hP.ports (.setPort _ _ _) ?_
    split
    · rename_i ho; exact hP.teardown s p _ ho hs
    · exact hs

theorem silenceRunOut (hP : BlocksLaw P) (p : PortId) (hs : P s) : P (s.silenceRunOut p) := by
  rw [State.silenceRunOut]
  split
  · rename_i ho; exact hP.teardown s p _ ho.1 hs
  · exact hs

/-- A command that answers a next state answers one state. -/
theorem of_next {u t : State} (hu : P u) (ht : (.next u : Host.Outcome State Fault Refusal) = .next t) : P t :=
  Host.Outcome.next.inj ht ▸ hu

/-- Every command keeps a law of the blocks. -/
theorem exec (hP : BlocksLaw P) {c : Instr} {t : State} (hs : P s) (ht : exec c s = .next t) : P t := by
  have hport : ∀ p x, P (s.setPort p x) := fun p x => hP.ports (.setPort s p x) hs
  have hend : ∀ p status results, P (s.endAwait p status results) := fun p _ _ => hP.ports (.endAwait s p _ _) hs
  have hite : ∀ (c : Prop) [Decidable c] (u : State), (c → P u) → P (if c then u else s) := fun c _ u hu => by
    split
    · rename_i hc; exact hu hc
    · exact hs
  cases hi : c.request? with
  | some kh =>
    obtain ⟨k, h⟩ := kh
    rw [exec_request_run hi] at ht
    exact of_next (hP.happening (hP.run c hs)) ht
  | none =>
    cases c with
    | powerOnReset pins => exact of_next (hP.poweredOn s pins hs) ht
    | abPairTransition c change => exact of_next (hP.happening (hP.pair s c change hs)) ht
    | indexEdge c => exact of_next (hP.happening (hP.index s c hs)) ht
    | gateChange c => exact of_next (hP.gate s c hs) ht
    | captureLineEdge n => exact of_next (hP.happening (hP.edge s n hs)) ht
    | lrstNAsserted p => exact of_next (hP.happening (f := fun u => u.lrstAsserted p) (hP.lrstAsserted p hs)) ht
    | lrstNReleased p => exact of_next (hport p _) ht
    | crcFailure p body crc => exact of_next (hP.happening (hite _ _ fun _ => hP.crcFailed p body crc hs)) ht
    | framingError p n => exact of_next (hite _ _ fun _ => hport p _) ht
    | frameGapTimeout p => exact of_next (hite _ _ fun _ => hport p _) ht
    | pulseTimerExpiry k => exact of_next (hite _ _ fun hk => hP.pulse s k hk hs) ht
    | silenceTimeout p => exact of_next (hP.happening (hP.silenceRunOut p hs)) ht
    | awaitTimeout p => exact of_next (hite _ _ fun _ => hend p _ _) ht
    | awaitEndedByStore p => exact of_next (hite _ _ fun _ => hend p _ _) ht
    | responseSent p => exact of_next (hport p _) ht
    | timestampIncrement => exact of_next (hP.increment s hs) ht
    | frameByteTaken p b => exact of_next (hP.happening (f := fun u => u.takeByte p b) (hP.takeByte p b hs)) ht
    | unknownRequestKind h code =>
      exact of_next (hP.happening (hite _ _ fun _ => hP.run (.unknownRequestKind h code) hs)) ht
    | _ => cases hi

/-- Every step keeps a law of the blocks that does not speak of the commands that wait. -/
theorem step (hP : BlocksLaw P) (hq : ∀ s q, P s → P (s.setPending q)) {t : State} (hs : P s)
    (ht : step s = .next t) : P t := by
  rw [Machine.step] at ht
  split at ht
  · cases ht; exact hs
  · exact hP.exec (hq _ _ hs) ht

end BlocksLaw

end Sys2Proof.Machine
end

section
/-! SUPPORT. What an evaluation of the zones does, said at once: the rings, the queues and the lines after the
transitions of a step (R46 to R50). -/

namespace Sys2Proof.Machine

/-! ## What the evaluations leave unchanged -/

section
variable (s : State) (c : ChanId)

@[simp] theorem State.resynced_timestamp : (s.resynced c).timestamp = s.timestamp := by
  unfold State.resynced; rfl
@[simp] theorem State.resynced_channels : (s.resynced c).channels = s.channels := by
  unfold State.resynced; rfl
@[simp] theorem State.resynced_capture : (s.resynced c).capture = s.capture := by
  unfold State.resynced; rfl
@[simp] theorem State.resynced_claims : (s.resynced c).claims = s.claims := by
  unfold State.resynced; rfl
@[simp] theorem State.resynced_sessions : (s.resynced c).sessions = s.sessions := by
  unfold State.resynced; rfl
@[simp] theorem State.resynced_ports : (s.resynced c).ports = s.ports := by
  unfold State.resynced; rfl
@[simp] theorem State.resynced_pending : (s.resynced c).pending = s.pending := by
  unfold State.resynced; rfl

@[simp] theorem State.resynced_zone (z : ZoneId) : (s.resynced c).zones[z] = (s.zones[z]).map (s.zoneResynced c) := by
  simp [State.resynced]

@[simp] theorem State.zoneStep_timestamp : (s.zoneStep c).timestamp = s.timestamp :=
  (congrArg State.timestamp (s.zoneStep_frame c)).trans rfl
@[simp] theorem State.zoneStep_channels : (s.zoneStep c).channels = s.channels :=
  (congrArg State.channels (s.zoneStep_frame c)).trans rfl
@[simp] theorem State.zoneStep_claims : (s.zoneStep c).claims = s.claims :=
  (congrArg State.claims (s.zoneStep_frame c)).trans rfl
@[simp] theorem State.zoneStep_sessions : (s.zoneStep c).sessions = s.sessions :=
  (congrArg State.sessions (s.zoneStep_frame c)).trans rfl
@[simp] theorem State.zoneStep_ports : (s.zoneStep c).ports = s.ports :=
  (congrArg State.ports (s.zoneStep_frame c)).trans rfl
@[simp] theorem State.zoneStep_pending : (s.zoneStep c).pending = s.pending :=
  (congrArg State.pending (s.zoneStep_frame c)).trans rfl

@[simp] theorem State.zoneStep_zone (z : ZoneId) :
    (s.zoneStep c).zones[z] = slotMoved c (s.channels[c]).modulus (s.channels[c]).count s.zones[z] := by
  rw [congrArg State.zones (s.zoneStep_frame c)]
  exact mapRows_get _ _ _ _

end

@[simp] theorem Zone.moved_owner (x : Zone) (m : Transition) : (x.moved m).owner = x.owner := by cases m <;> rfl
@[simp] theorem Zone.moved_channel (x : Zone) (m : Transition) : (x.moved m).channel = x.channel := by cases m <;> rfl
@[simp] theorem Zone.moved_link (x : Zone) (m : Transition) : (x.moved m).link = x.link := by cases m <;> rfl
@[simp] theorem Zone.moved_actionSet (x : Zone) (m n : Transition) : (x.moved m).actionSet n = x.actionSet n := by
  cases m <;> cases n <;> rfl

/-- A slot that makes a transition holds a zone of the channel. -/
theorem slotMove_eq_some {c : ChanId} {M : Nat} {n : Int} {o : Option Zone} {m : Transition} :
    slotMove c M n o = some m ↔ ∃ x, o = some x ∧ x.channel = c ∧ x.onStep M n = some m := by
  cases o with
  | none => simp [slotMove]
  | some x => simp [slotMove]

/-- A slot that makes a transition holds the moved zone afterwards. -/
theorem slotMoved_of_move {c : ChanId} {M : Nat} {n : Int} {x : Zone} {m : Transition}
    (h : slotMove c M n (some x) = some m) : slotMoved c M n (some x) = some (x.moved m) := by
  rw [slotMoved, h]; rfl

/-! ## The rings and the queues (R46, R48, R49) -/

/-- What one transition of a list gives a session: from its ring so far and its events so far, those after it. -/
def State.moveWork (t : State) (p : PortId) (done : CaptureState × List Event) (m : ZoneId × Transition) :
    CaptureState × List Event :=
  match (t.zones[m.1]).filter fun x => x.owner = p with
  | none => done
  | some x =>
    let ring :=
      if (x.actionSet m.2).mask = 0 then (done.1, [])
      else done.1.meets (t.captureNow (transitionCause m.2 m.1) (x.actionSet m.2).mask)
    (ring.1, done.2 ++ (if (x.actionSet m.2).event then
      [transitionEvent m.2 m.1 (t.channels[x.channel]).count (t.channels[x.channel]).turns] else []) ++ ring.2)

/-- The ring after a transition does not depend on the events before it, and its events follow them. -/
theorem State.moveWork_append (t : State) (p : PortId) (x : CaptureState) (es : List Event) (m : ZoneId × Transition) :
    t.moveWork p (x, es) m = ((t.moveWork p (x, []) m).1, es ++ (t.moveWork p (x, []) m).2) := by
  simp only [State.moveWork]
  split <;> simp

theorem State.moveWork_foldl_append (t : State) (p : PortId) (l : List (ZoneId × Transition)) (x : CaptureState)
    (es : List Event) :
    l.foldl (t.moveWork p) (x, es) =
      ((l.foldl (t.moveWork p) (x, [])).1, es ++ (l.foldl (t.moveWork p) (x, [])).2) := by
  induction l generalizing x es with
  | nil => simp
  | cons m l ih =>
    rw [List.foldl_cons, List.foldl_cons, State.moveWork_append, ih]
    conv_rhs => rw [ih]
    simp

/-- The work of a transition reads the zones, the channels and the timestamp alone. -/
theorem State.moveWork_congr {t u : State} (hz : u.zones = t.zones) (hc : u.channels = t.channels)
    (hs : u.timestamp = t.timestamp) : u.moveWork = t.moveWork := by
  funext p done m
  simp only [State.moveWork, State.captureNow, hz, hc, hs]

/-- One transition reaches the queues and the rings as its session's work says. -/
theorem State.takeActions_work (t : State) (m : ZoneId × Transition) :
    (t.takeActions m).queues = (t.posted fun p => (t.moveWork p (t.capture[p], []) m).2).queues ∧
      ∀ p : PortId, (t.takeActions m).capture[p] = (t.moveWork p (t.capture[p], []) m).1 := by
  obtain ⟨z, m⟩ := m
  cases hz : t.zones[z] with
  | none =>
    have hid : t.takeActions (z, m) = t := by simp only [State.takeActions, hz]
    have hw : ∀ p, t.moveWork p (t.capture[p], []) (z, m) = (t.capture[p], []) := fun p => by
      simp only [State.moveWork, hz, Option.filter_none]
    simp [hid, hw, -Fin.getElem_fin]
  | some x =>
    have hw : ∀ p, t.moveWork p (t.capture[p], []) (z, m) =
        if p = x.owner then ((t.transitionRing z x m).1, t.transitionEvents z x m) else (t.capture[p], []) := by
      intro p
      by_cases ho : x.owner = p
      · subst ho
        simp [State.moveWork, hz, Option.filter_some, State.transitionRing, State.transitionEvents, -Fin.getElem_fin]
      · simp [State.moveWork, hz, Option.filter_some, ho, Ne.symm ho, -Fin.getElem_fin]
    rw [State.takeActions_eq t z x m hz]
    refine ⟨?_, fun p => ?_⟩
    · have he : (fun p => (t.moveWork p (t.capture[p], []) (z, m)).2) =
          fun q => if q = x.owner then t.transitionEvents z x m else [] := by
        funext p; rw [hw]; split <;> rfl
      rw [he]
    · rw [hw]
      by_cases ho : p = x.owner
      · subst ho; simp
      · have hne : x.owner.val ≠ p.val := fun e => ho (Fin.ext e.symm)
        simp [ho, hne]

/-- The transitions of a list reach the queues and the rings as the work of each session says. -/
theorem State.takeActions_foldl_work (l : List (ZoneId × Transition)) (t : State) :
    (l.foldl State.takeActions t).queues =
        (t.posted fun p => (l.foldl (t.moveWork p) (t.capture[p], [])).2).queues ∧
      ∀ p : PortId, (l.foldl State.takeActions t).capture[p] = (l.foldl (t.moveWork p) (t.capture[p], [])).1 := by
  induction l generalizing t with
  | nil => simp
  | cons m l ih =>
    obtain ⟨hq, hc⟩ := State.takeActions_work t m
    have hf := State.takeActions_frame t m
    have hmw : (t.takeActions m).moveWork = t.moveWork :=
      State.moveWork_congr ((congrArg State.zones hf).trans rfl) ((congrArg State.channels hf).trans rfl)
        ((congrArg State.timestamp hf).trans rfl)
    have hstep : ∀ p, (m :: l).foldl (t.moveWork p) (t.capture[p], []) =
        ((l.foldl (t.moveWork p) ((t.takeActions m).capture[p], [])).1,
          (t.moveWork p (t.capture[p], []) m).2 ++
            (l.foldl (t.moveWork p) ((t.takeActions m).capture[p], [])).2) := by
      intro p
      rw [List.foldl_cons, hc, ← State.moveWork_foldl_append]
    obtain ⟨ihq, ihc⟩ := ih (t.takeActions m)
    rw [hmw] at ihq ihc
    refine ⟨?_, fun p => by rw [List.foldl_cons, ihc, hstep]⟩
    rw [List.foldl_cons, ihq, funext fun p => congrArg Prod.snd (hstep p), ← State.posted_posted]
    ext p hp
    have hs : (t.takeActions m).sessions = t.sessions := (congrArg State.sessions hf).trans rfl
    have ht : (t.takeActions m).timestamp = t.timestamp := (congrArg State.timestamp hf).trans rfl
    simp only [State.posted_queue, State.posted_sessions, State.posted_timestamp, hq, hs, ht]

/-- The transitions of a step, in ascending zone id. -/
def State.moves (s : State) (c : ChanId) : List (ZoneId × Transition) :=
  s.slotsWith (slotMove c (s.channels[c]).modulus (s.channels[c]).count)

/-- The table with the transitions of a step in place, before their actions. -/
def State.withMoved (s : State) (c : ChanId) : State :=
  s.setZones (mapRows (slotMoved c (s.channels[c]).modulus (s.channels[c]).count) s.zones)

@[simp] theorem State.withMoved_channels (s : State) (c : ChanId) : (s.withMoved c).channels = s.channels := rfl
@[simp] theorem State.withMoved_captureNow (s : State) (c : ChanId) (cause : CaptureCause) (mask : Byte) :
    (s.withMoved c).captureNow cause mask = s.captureNow cause mask := rfl

theorem State.zoneStep_eq_foldl (s : State) (c : ChanId) :
    s.zoneStep c = (s.moves c).foldl State.takeActions (s.withMoved c) := rfl

theorem State.withMoved_zone (s : State) (c : ChanId) (z : ZoneId) :
    (s.withMoved c).zones[z] = slotMoved c (s.channels[c]).modulus (s.channels[c]).count s.zones[z] :=
  mapRows_get _ _ _ _

theorem State.mem_moves {s : State} {c : ChanId} {z : ZoneId} {m : Transition} :
    (z, m) ∈ s.moves c ↔ slotMove c (s.channels[c]).modulus (s.channels[c]).count s.zones[z] = some m := by
  simp only [State.moves, State.slotsWith, List.mem_filterMap, List.mem_finRange, true_and, Option.map_eq_some_iff,
    Prod.mk.injEq]
  constructor
  · rintro ⟨w, n, hn, rfl, rfl⟩; exact hn
  · intro h; exact ⟨z, m, h, rfl, rfl⟩

/-- The work of a slot is that of its transition. -/
theorem State.slotWork_eq (s : State) (c : ChanId) (p : PortId) (done : CaptureState × List Event) (z : ZoneId) :
    s.slotWork c p done z =
      match slotMove c (s.channels[c]).modulus (s.channels[c]).count s.zones[z] with
      | none => done
      | some m => (s.withMoved c).moveWork p done (z, m) := by
  cases hz : s.zones[z] with
  | none => simp [State.slotWork, slotMove, hz, -Fin.getElem_fin]
  | some x =>
    by_cases hc : x.channel = c
    swap
    · simp [State.slotWork, slotMove, hz, Option.filter_some, hc, -Fin.getElem_fin]
    subst hc
    cases hm : x.onStep (s.channels[x.channel]).modulus (s.channels[x.channel]).count with
    | none =>
      by_cases ho : x.owner = p
      · simp [State.slotWork, slotMove, hz, Option.filter_some, ho, hm, -Fin.getElem_fin]
      · simp [State.slotWork, slotMove, hz, Option.filter_some, ho, hm, -Fin.getElem_fin]
    | some m =>
      have hmove : slotMove x.channel (s.channels[x.channel]).modulus (s.channels[x.channel]).count (some x) =
          some m := slotMove_eq_some.mpr ⟨x, rfl, rfl, hm⟩
      have hzone : (s.withMoved x.channel).zones[z] = some (x.moved m) := by
        rw [State.withMoved_zone, hz, slotMoved_of_move hmove]
      by_cases ho : x.owner = p
      · cases m <;>
          simp [State.slotWork, State.moveWork, Option.filter_some, hzone, hmove, hz, ho, hm, -Fin.getElem_fin] <;>
            exact ⟨rfl, rfl⟩
      · simp [State.slotWork, State.moveWork, Option.filter_some, hzone, hmove, hz, ho, -Fin.getElem_fin]

/-- The work of a session on a step is that of the step's transitions. -/
theorem State.stepWork_eq (s : State) (c : ChanId) (p : PortId) :
    s.stepWork c p = (s.moves c).foldl ((s.withMoved c).moveWork p) (s.capture[p], []) := by
  rw [State.stepWork, State.moves, State.slotsWith, List.foldl_filterMap]
  congr 1
  funext done z
  rw [State.slotWork_eq]
  split <;> simp_all

/-- The queues and the rings after a step are those of the work of each session. -/
theorem State.zoneStep_work (s : State) (c : ChanId) :
    (s.zoneStep c).queues = (s.posted fun p => (s.stepWork c p).2).queues ∧
      ∀ p : PortId, (s.zoneStep c).capture[p] = (s.stepWork c p).1 := by
  obtain ⟨hq, hc⟩ := State.takeActions_foldl_work (s.moves c) (s.withMoved c)
  refine ⟨?_, fun p => ?_⟩
  · rw [State.zoneStep_eq_foldl, hq, funext (fun p => congrArg Prod.snd (s.stepWork_eq c p))]
    rfl
  · rw [State.zoneStep_eq_foldl, hc, State.stepWork_eq]
    rfl

/-! ## The lines (R50) -/

/-- What the action set of one transition asks of a line: the trigger, then the re-computation of a held FOLLOW line
that the link follows. -/
def State.lineAct (t : State) (k : LineId) (l : OutLine) (m : ZoneId × Transition) : OutLine :=
  match (t.zones[m.1]).filter fun x => x.link.any (·.line == k) with
  | none => l
  | some x =>
    let l1 := if (x.actionSet m.2).trigger = true ∧ t.lineHeld k = true then l.triggered else l
    if x.link = some ⟨k, true⟩ ∧ t.lineHeld k = true ∧ l1.mode = .follow then l1.driven (t.followDrive k) else l1

theorem State.lineAct_congr {t u : State} (hz : u.zones = t.zones) (hc : u.claims = t.claims) :
    u.lineAct = t.lineAct := by
  funext k l m
  simp only [State.lineAct, State.lineHeld, State.followDrive, hz, hc] <;> rfl

theorem State.recompute_line (s : State) (j k : LineId) :
    (s.recompute j).lines[k] =
      if j = k ∧ s.lineHeld k = true ∧ (s.lines[k]).mode = .follow then (s.lines[k]).driven (s.followDrive k)
      else s.lines[k] := by
  rw [State.recompute]
  by_cases hj : j = k
  · subst hj
    by_cases hg : s.lineHeld j = true ∧ (s.lines[j]).mode = .follow
    · rw [if_pos hg, if_pos ⟨rfl, hg⟩]; simp
    · rw [if_neg hg, if_neg fun h => hg h.2]
  · have hne : j.val ≠ k.val := fun e => hj (Fin.ext e)
    simp only [hj, false_and, if_false]
    split
    · simp [hne]
    · rfl

theorem State.trigger_line (s : State) (j k : LineId) :
    (s.trigger j).lines[k] = if j = k ∧ s.lineHeld k = true then (s.lines[k]).triggered else s.lines[k] := by
  rw [State.trigger]
  by_cases hj : j = k
  · subst hj
    by_cases hg : s.lineHeld j = true
    · rw [if_pos hg, if_pos ⟨rfl, hg⟩]; simp
    · rw [if_neg hg, if_neg fun h => hg h.2]
  · have hne : j.val ≠ k.val := fun e => hj (Fin.ext e)
    simp only [hj, false_and, if_false]
    split
    · simp [hne]
    · rfl

/-- A trigger reaches the lines alone. -/
theorem State.trigger_frame (s : State) (j : LineId) : s.trigger j = { s with lines := (s.trigger j).lines } := by
  rw [State.trigger]; split <;> rfl

/-- The link action reaches each line as its action says. -/
theorem State.actLink_line (t : State) (z : ZoneId) (x : Zone) (m : Transition) (k : LineId)
    (hz : t.zones[z] = some x) :
    (t.actLink x m).lines[k] = t.lineAct k t.lines[k] (z, m) := by
  rw [State.actLink, State.lineAct]
  simp only [hz]
  cases hl : x.link with
  | none => simp [Option.filter_some, hl]
  | some l =>
    obtain ⟨j, f⟩ := l
    obtain ⟨t1, ht1⟩ : ∃ t1, t1 = if (x.actionSet m).trigger = true then t.trigger j else t := ⟨_, rfl⟩
    have hheld : t1.lineHeld k = t.lineHeld k ∧ t1.followDrive k = t.followDrive k := by
      rw [ht1]
      split
      · rw [State.trigger_frame]; exact ⟨rfl, rfl⟩
      · exact ⟨rfl, rfl⟩
    have hline : t1.lines[k] = if (x.actionSet m).trigger = true ∧ j = k ∧ t.lineHeld k = true then
        (t.lines[k]).triggered else t.lines[k] := by
      rw [ht1]
      by_cases htr : (x.actionSet m).trigger = true
      · simp only [htr, if_true, true_and]; exact State.trigger_line t j k
      · simp [htr]
    have hlink : (if f = true then t1.recompute j else t1).lines[k] =
        if f = true ∧ j = k ∧ t.lineHeld k = true ∧ (t1.lines[k]).mode = .follow then
          (t1.lines[k]).driven (t.followDrive k) else t1.lines[k] := by
      by_cases hf : f = true
      · simp only [hf, if_true, true_and]
        rw [State.recompute_line, hheld.1, hheld.2]
      · simp [hf]
    simp only [← ht1]
    rw [hlink, hline]
    by_cases hj : j = k
    · subst hj
      simp [Option.filter_some, hl]
    · simp [Option.filter_some, hl, hj]

/-- One transition reaches each line as its action says. -/
theorem State.takeActions_line (t : State) (m : ZoneId × Transition) (k : LineId) :
    (t.takeActions m).lines[k] = t.lineAct k t.lines[k] m := by
  obtain ⟨z, m⟩ := m
  cases hz : t.zones[z] with
  | none => simp [State.takeActions, State.lineAct, hz, -Fin.getElem_fin]
  | some x =>
    have hev : ∀ u : State, u.actEvent z x m = { u with queues := (u.actEvent z x m).queues } := by
      intro u; rw [State.actEvent, State.post_eq_posted]; split <;> rfl
    have hcap : ∀ u : State, u.actCapture z x m =
        { u with capture := (u.actCapture z x m).capture, queues := (u.actCapture z x m).queues } := by
      intro u; rw [State.actCapture, State.takeCapture_eq]; split <;> rfl
    have hu : (t.actEvent z x m).actCapture z x m =
        { t with capture := ((t.actEvent z x m).actCapture z x m).capture
                 queues := ((t.actEvent z x m).actCapture z x m).queues } := by
      rw [hcap, hev]
    have ht : t.takeActions (z, m) = ((t.actEvent z x m).actCapture z x m).actLink x m := by
      simp only [State.takeActions, hz]
    rw [ht, State.actLink_line _ z x m k (by rw [hu]; exact hz),
      State.lineAct_congr (t := t) (by rw [hu]) (by rw [hu]), hu]

/-- The transitions of a list reach each line one after another. -/
theorem State.takeActions_foldl_line (l : List (ZoneId × Transition)) (t : State) (k : LineId) :
    (l.foldl State.takeActions t).lines[k] = l.foldl (t.lineAct k) t.lines[k] := by
  induction l generalizing t with
  | nil => rfl
  | cons m l ih =>
    have hf := State.takeActions_frame t m
    rw [List.foldl_cons, ih, State.takeActions_line,
      State.lineAct_congr ((congrArg State.zones hf).trans rfl) ((congrArg State.claims hf).trans rfl)]
    rfl

/-- A line after a step: the actions of the step's transitions, over the table with every transition in place. -/
theorem State.zoneStep_line (s : State) (c : ChanId) (k : LineId) :
    (s.zoneStep c).lines[k] = (s.moves c).foldl ((s.withMoved c).lineAct k) s.lines[k] :=
  State.takeActions_foldl_line (s.moves c) (s.withMoved c) k

end Sys2Proof.Machine
end

section
/-! SUPPORT. The windows of zones by their bounds, the work of a step without captures, and a step on which one zone
changes (R41 to R50). -/

namespace Sys2Proof.Machine

/-! ## Windows (R41 to R43) -/

theorem emod_eq_of_near {a M : Int} (hlo : -M < a) (hhi : a < M) : a % M = if 0 ≤ a then a else a + M := by
  split
  · rename_i h; exact Int.emod_eq_of_lt h hhi
  · rw [← Int.add_emod_right]; exact Int.emod_eq_of_lt (by omega) (by omega)

/-- A count lies in the range of a channel (R2). -/
abbrev CountFits (M : Nat) (p : Int) : Prop := M ≠ 0 → 0 ≤ p ∧ p < (M : Int)

theorem Channel.Lawful.countFits {x : Channel} (h : x.Lawful) : CountFits x.modulus x.count := by
  obtain ⟨-, -, hmod, -⟩ := h
  exact fun hM => ⟨(hmod hM).1, (hmod hM).2.1⟩

/-- A window whose bounds fit, read upward from low to high and through 0 where low is above high. -/
abbrev InsideWindow (M : Nat) (low high p : Int) : Prop :=
  if M = 0 ∨ low ≤ high then low ≤ p ∧ p ≤ high else low ≤ p ∨ p ≤ high

theorem inWindow_iff {M : Nat} {low high p : Int} {hyst : Nat} (hb : BoundsHold M low high hyst)
    (hp : CountFits M p) : inWindow M low high p = true ↔ InsideWindow M low high p := by
  by_cases hM : M = 0
  · simp [inWindow, InsideWindow, hM]
  · rw [BoundsHold, if_neg hM] at hb
    obtain ⟨hp0, hpM⟩ := hp hM
    obtain ⟨hl0, hlM, hh0, hhM, -⟩ := hb
    rw [inWindow, if_neg hM, decide_eq_true_eq, windowWidth, emod_eq_of_near (by omega) (by omega),
      emod_eq_of_near (by omega) (by omega), InsideWindow]
    simp only [hM, false_or]
    split_ifs <;> omega

/-- The exit condition: below or above the window by more than the hysteresis on a linear channel; on a modulus channel
outside the window, and by more than the hysteresis both above high and below low. -/
abbrev BeyondWindow (M : Nat) (low high : Int) (hyst : Nat) (p : Int) : Prop :=
  if M = 0 then p < low - hyst ∨ high + hyst < p
  else ¬ InsideWindow M low high p ∧ hyst < (p - high) % (M : Int) ∧ hyst < (low - p) % (M : Int)

theorem exitHolds_iff {M : Nat} {low high p : Int} {hyst : Nat} (hb : BoundsHold M low high hyst)
    (hp : CountFits M p) : exitHolds M low high hyst p = true ↔ BeyondWindow M low high hyst p := by
  by_cases hM : M = 0
  · simp only [exitHolds, BeyondWindow, hM, if_true, decide_eq_true_eq, gt_iff_lt]
  · rw [exitHolds, BeyondWindow, if_neg hM, if_neg hM, Bool.and_eq_true, Bool.not_eq_true', decide_eq_true_eq,
      ← Bool.not_eq_true, inWindow_iff hb hp]
    exact and_congr_right fun _ => Iff.rfl

/-- The transition of a lawful zone on a step of its channel (R45). -/
theorem Zone.onStep_eq {y : Zone} {M : Nat} {p : Int} (hb : BoundsHold M y.low y.high y.hysteresis)
    (hp : CountFits M p) :
    (y.onStep M p = some .entry ↔ y.state = .outside ∧ InsideWindow M y.low y.high p) ∧
      (y.onStep M p = some .exit ↔ y.state = .inside ∧ BeyondWindow M y.low y.high y.hysteresis p) := by
  rw [← inWindow_iff hb hp, ← exitHolds_iff hb hp, Zone.onStep]
  cases y.state <;> simp

/-! ## A step without captures (R48) -/

/-- The event that a slot gives a session on a step. -/
def State.stepEvent (s : State) (c : ChanId) (p : PortId) (z : ZoneId) : Option Event :=
  match s.zones[z] with
  | none => none
  | some y =>
    if y.channel ≠ c ∨ y.owner ≠ p then none
    else
      match y.onStep (s.channels[c]).modulus (s.channels[c]).count with
      | some .entry => if y.onEnter.event then some (.zoneEnter z (s.channels[c]).count (s.channels[c]).turns) else none
      | some .exit => if y.onExit.event then some (.zoneExit z (s.channels[c]).count (s.channels[c]).turns) else none
      | none => none

/-- A slot whose action sets ask for no capture gives its event and leaves the ring. -/
theorem State.slotWork_of_no_mask {s : State} {c : ChanId} {z : ZoneId}
    (hm : ∀ y ∈ s.zones[z], y.channel = c → y.onEnter.mask = 0 ∧ y.onExit.mask = 0) (p : PortId)
    (x : CaptureState) (es : List Event) :
    s.slotWork c p (x, es) z = (x, es ++ (s.stepEvent c p z).toList) := by
  cases hz : s.zones[z] with
  | none => simp [State.slotWork, State.stepEvent, hz, -Fin.getElem_fin]
  | some y =>
    by_cases hc : y.channel = c
    swap
    · simp [State.slotWork, State.stepEvent, hz, Option.filter_some, hc, -Fin.getElem_fin]
    by_cases ho : y.owner = p
    swap
    · simp [State.slotWork, State.stepEvent, hz, Option.filter_some, hc, ho, -Fin.getElem_fin]
    obtain ⟨hen, hex⟩ := hm y hz hc
    cases ht : y.onStep (s.channels[c]).modulus (s.channels[c]).count with
    | none => simp [State.slotWork, State.stepEvent, hz, Option.filter_some, hc, ho, ht, -Fin.getElem_fin]
    | some m =>
      cases m with
      | entry =>
        by_cases he : y.onEnter.event = true <;>
          simp [State.slotWork, State.stepEvent, hz, Option.filter_some, hc, ho, ht, hen, he, -Fin.getElem_fin]
      | exit =>
        by_cases he : y.onExit.event = true <;>
          simp [State.slotWork, State.stepEvent, hz, Option.filter_some, hc, ho, ht, hex, he, -Fin.getElem_fin]

/-- A step on which no zone asks for a capture leaves the rings and gives the events of its slots. -/
theorem State.stepWork_of_no_mask {s : State} {c : ChanId}
    (hm : ∀ z : ZoneId, ∀ y ∈ s.zones[z], y.channel = c → y.onEnter.mask = 0 ∧ y.onExit.mask = 0) (p : PortId) :
    s.stepWork c p = (s.capture[p], (List.finRange 32).filterMap (s.stepEvent c p)) := by
  have hl : ∀ (l : List ZoneId) (es : List Event),
      l.foldl (s.slotWork c p) (s.capture[p], es) = (s.capture[p], es ++ l.filterMap (s.stepEvent c p)) := by
    intro l
    induction l with
    | nil => intro es; simp
    | cons z l ih =>
      intro es
      rw [List.foldl_cons, State.slotWork_of_no_mask (hm z), ih, List.filterMap_cons]
      cases s.stepEvent c p z <;> simp
  exact hl _ []

/-! ## A step on which one zone changes -/

/-- A list without repeats whose members give nothing but one gives that one's. -/
theorem filterMap_eq_singleton {α β : Type} {f : α → Option β} {l : List α} {a : α} {b : β} (hn : l.Nodup)
    (ha : a ∈ l) (hb : f a = some b) (h : ∀ x ∈ l, x ≠ a → f x = none) : l.filterMap f = [b] := by
  induction l with
  | nil => cases ha
  | cons x l ih =>
    obtain ⟨hx, hn⟩ := List.nodup_cons.mp hn
    by_cases hxa : x = a
    · subst hxa
      rw [List.filterMap_cons_some hb]
      congr 1
      exact List.filterMap_eq_nil_iff.mpr fun y hy => h y (List.mem_cons_of_mem _ hy) fun e => hx (e ▸ hy)
    · rw [List.filterMap_cons_none (h x List.mem_cons_self hxa)]
      exact ih hn ((List.mem_cons.mp ha).resolve_left (Ne.symm hxa)) fun y hy => h y (List.mem_cons_of_mem _ hy)

/-- Only the zone `z`, which holds `y`, changes on a step of the channel `c`, by the transition `m`. -/
structure LoneMove (s : State) (c : ChanId) (z : ZoneId) (y : Zone) (m : Transition) : Prop where
  zone : s.zones[z] = some y
  channel : y.channel = c
  onStep : y.onStep (s.channels[c]).modulus (s.channels[c]).count = some m
  others : ∀ z' : ZoneId, ∀ y' ∈ s.zones[z'], z' ≠ z → y'.channel = c →
    y'.onStep (s.channels[c]).modulus (s.channels[c]).count = none

namespace LoneMove
variable {s : State} {c : ChanId} {z : ZoneId} {y : Zone} {m : Transition}

theorem slotMove_self (h : LoneMove s c z y m) :
    slotMove c (s.channels[c]).modulus (s.channels[c]).count s.zones[z] = some m :=
  slotMove_eq_some.mpr ⟨y, h.zone, h.channel, h.onStep⟩

theorem slotMove_other (h : LoneMove s c z y m) {z' : ZoneId} (hz : z' ≠ z) :
    slotMove c (s.channels[c]).modulus (s.channels[c]).count s.zones[z'] = none := by
  rw [Option.eq_none_iff_forall_ne_some]
  intro n hn
  obtain ⟨x, hx, hc, hs⟩ := slotMove_eq_some.mp hn
  rw [h.others z' x hx hz hc] at hs
  cases hs

theorem moves_eq (h : LoneMove s c z y m) : s.moves c = [(z, m)] := by
  refine filterMap_eq_singleton (List.nodup_finRange 32) (List.mem_finRange z) ?_ fun z' _ hz => ?_
  · rw [h.slotMove_self]; rfl
  · rw [h.slotMove_other hz]; rfl

theorem withMoved_eq (h : LoneMove s c z y m) :
    s.withMoved c = { s with zones := s.zones.set z (some (y.moved m)) } := by
  have hz : mapRows (slotMoved c (s.channels[c]).modulus (s.channels[c]).count) s.zones =
      s.zones.set z (some (y.moved m)) := by
    ext1 i hi
    rw [mapRows_get, Vector.getElem_set]
    by_cases hzi : z.val = i
    · subst hzi
      rw [if_pos rfl]
      have hself := h.slotMove_self
      have hzone := h.zone
      simp only [Fin.getElem_fin] at hself hzone ⊢
      rw [hzone] at hself ⊢
      exact slotMoved_of_move hself
    · rw [if_neg hzi]
      have hother := h.slotMove_other (z' := ⟨i, hi⟩) fun e => hzi (by rw [← e])
      simp only [Fin.getElem_fin] at hother ⊢
      rw [slotMoved, hother]
  rw [State.withMoved, hz]
  rfl

/-- The step is the actions of the one transition, taken over the table with the zone's new state. -/
theorem zoneStep_eq (h : LoneMove s c z y m) :
    s.zoneStep c = State.takeActions { s with zones := s.zones.set z (some (y.moved m)) } (z, m) := by
  rw [State.zoneStep_eq_foldl, h.moves_eq, h.withMoved_eq]
  rfl

end LoneMove

theorem OutLine.triggered_of_follow {l : OutLine} (h : l.mode = .follow) : l.triggered = l := by
  rw [OutLine.triggered, h]

theorem OutLine.triggered_of_direct {l : OutLine} (h : l.mode = .direct) : l.triggered = l := by
  rw [OutLine.triggered, h]

/-- A trigger in PULSE mode starts a pulse of the width, starts it again under RESTART, or is discarded (R126, R127). -/
theorem OutLine.triggered_of_pulse {l : OutLine} (h : l.mode = .pulse) :
    l.triggered =
      match l.timer, l.retrigger with
      | none, _ => ({ l with timer := some l.width.toNat } : OutLine).driven .active
      | some _, .restart => { l with timer := some l.width.toNat }
      | some _, .ignore => l := by
  rw [OutLine.triggered, h]
  cases l.timer with
  | none => rfl
  | some n => cases l.retrigger <;> rfl

@[simp] theorem OutLine.triggered_mode (l : OutLine) : l.triggered.mode = l.mode := by
  rw [OutLine.triggered]; split <;> rfl

end Sys2Proof.Machine
end

section
/-! SUPPORT. The statements about the evaluation of a step, settled. -/

namespace Sys2Proof.Machine

/-- Settles O26: a slot moves exactly where its zone of the channel makes a transition, and the window and exit
conditions of a zone whose bounds fit are those of its bounds. -/
theorem stepMovesZones : Obligations.StepMovesZones := by
  intro c s hl ho
  dsimp only
  refine ⟨fun z hz => ?_, fun z y hy => ?_, (s.zoneStep_frame c).trans ?_⟩
  · rw [State.zoneStep_zone, hz]; rfl
  · have hz : (s.zoneStep c).zones[z] =
        slotMoved c (s.channels[c]).modulus (s.channels[c]).count (some y) := by rw [State.zoneStep_zone, hy]
    have hstep (hc : y.channel = c) := Zone.onStep_eq (y := y) (p := (s.channels[c]).count)
      (boundsFit_iff.mp (hc ▸ (ho.1 z y hy).2.2.1)) hl.countFits
    refine ⟨fun ⟨hc, hst, hin⟩ => ?_, fun ⟨hc, hst, hout⟩ => ?_, fun hn => ?_⟩
    · rw [hz, slotMoved_of_move (slotMove_eq_some.mpr ⟨y, rfl, hc, (hstep hc).1.mpr ⟨hst, hin⟩⟩)]
      rfl
    · rw [hz, slotMoved_of_move (slotMove_eq_some.mpr ⟨y, rfl, hc, (hstep hc).2.mpr ⟨hst, hout⟩⟩)]
      rfl
    · have hno : slotMove c (s.channels[c]).modulus (s.channels[c]).count (some y) = none := by
        rw [Option.eq_none_iff_forall_ne_some]
        intro m hm
        obtain ⟨x, hx, hc, hs⟩ := slotMove_eq_some.mp hm
        obtain rfl := Option.some.inj hx
        cases m with
        | entry => exact hn ⟨hc, .inl ((hstep hc).1.mp hs)⟩
        | exit => exact hn ⟨hc, .inr ((hstep hc).2.mp hs)⟩
      rw [hz, slotMoved, hno]
  · rw [congrArg State.zones (s.zoneStep_frame c)]

/-- Settles O27: the transitions of a step reach each session's ring and queue as that session's work in ascending zone
id; where no zone asks for a capture the work is the slots' events alone. -/
theorem stepActsInZoneOrder : Obligations.StepActsInZoneOrder := by
  refine ⟨fun c s => s.zoneStep_work c, fun c s hm => ?_⟩
  dsimp only
  obtain ⟨hq, hc⟩ := s.zoneStep_work c
  simp only [State.stepWork_of_no_mask hm] at hq hc
  refine ⟨hq.trans ?_, ?_⟩
  · refine congrArg (fun es => (s.posted es).queues) (funext fun p => ?_)
    refine congrArg (fun f => (List.finRange 32).filterMap f) (funext fun z => ?_)
    rw [State.stepEvent] <;> rfl
  · ext1 i hi
    exact hc ⟨i, hi⟩

/-- What the action set of a transition makes of the line of its link, by the line's mode (R126, R127). -/
def OutLine.acted (o : OutLine) (trigger follow : Bool) (followed : Drive) : OutLine :=
  match o.mode with
  | .direct => o
  | .follow => if follow then o.driven followed else o
  | .pulse => if trigger then o.triggered else o

/-- The line of a transition's link, where it is held. -/
theorem State.lineAct_linked {t : State} {z : ZoneId} {x : Zone} {m : Transition} {l : Link}
    (hz : t.zones[z] = some x) (hl : x.link = some l) (hh : t.lineHeld l.line = true) (o : OutLine) :
    t.lineAct l.line o (z, m) = o.acted (x.actionSet m).trigger l.follow (t.followDrive l.line) := by
  obtain ⟨k, f⟩ := l
  have hfilter : (t.zones[z]).filter (fun x => x.link.any (·.line == k)) = some x := by
    simp [hz, Option.filter_some, hl]
  simp only [State.lineAct, hfilter, hh, hl, and_true, true_and, Option.some.injEq, Link.mk.injEq, OutLine.acted]
  cases hm : o.mode with
  | direct => simp [OutLine.triggered_of_direct hm, hm]
  | follow => simp [OutLine.triggered_of_follow hm, hm]
  | pulse => by_cases htr : (x.actionSet m).trigger = true <;> simp [htr, hm]

/-- A line that the transition's link does not name. -/
theorem State.lineAct_not_linked {t : State} {z : ZoneId} {x : Zone} {m : Transition} {k : LineId}
    (hz : t.zones[z] = some x) (hl : ∀ l ∈ x.link, l.line ≠ k) (o : OutLine) : t.lineAct k o (z, m) = o := by
  have hfilter : (t.zones[z]).filter (fun x => x.link.any (·.line == k)) = none := by
    simp only [hz, Option.filter_eq_none_iff, Option.some.injEq, Option.any_eq_true, beq_iff_eq, not_exists, not_and]
    rintro _ rfl l hlx rfl
    exact hl l hlx rfl
  simp only [State.lineAct, hfilter]

/-- A step on which one zone changes: the zone's new state, its events and capture to its owner, and its link's line. -/
theorem LoneMove.zoneStep_whole {s : State} {c : ChanId} {z : ZoneId} {y : Zone} {m : Transition}
    (h : LoneMove s c z y m) (hheld : ∀ l ∈ y.link, s.lineHeld l.line = true) {t : State}
    (ht : t = { s with zones := s.zones.set z (some (y.moved m)) }) :
    s.zoneStep c =
      { t.posted fun p => if p = y.owner then s.transitionEvents z y m else [] with
        capture := s.capture.set y.owner (s.transitionRing z y m).1
        lines := match y.link with
          | none => s.lines
          | some l => s.lines.set l.line
              ((s.lines[l.line]).acted (y.actionSet m).trigger l.follow (t.followDrive l.line)) } := by
  have htz : t.zones[z] = some (y.moved m) := by rw [ht]; simp
  have htc : t.channels = s.channels := by rw [ht]
  have hring : t.transitionRing z (y.moved m) m = s.transitionRing z y m := by
    simp only [State.transitionRing, Zone.moved_actionSet, Zone.moved_owner, ht]; rfl
  have hevents : t.transitionEvents z (y.moved m) m = s.transitionEvents z y m := by
    simp only [State.transitionEvents, hring, Zone.moved_actionSet, Zone.moved_channel, htc]
  have hlines : (t.takeActions (z, m)).lines = match y.link with
      | none => s.lines
      | some l => s.lines.set l.line
          ((s.lines[l.line]).acted (y.actionSet m).trigger l.follow (t.followDrive l.line)) := by
    ext1 i hi
    have hk := t.takeActions_line (z, m) ⟨i, hi⟩
    simp only [Fin.getElem_fin] at hk
    rw [hk]
    cases hl : y.link with
    | none =>
      rw [State.lineAct_not_linked htz (by rw [Zone.moved_link, hl]; simp), ht]
    | some l =>
      have hlm : (y.moved m).link = some l := (Zone.moved_link y m).trans hl
      by_cases hli : l.line.val = i
      · subst hli
        have hh : t.lineHeld l.line = true := by rw [ht]; exact hheld l hl
        have hact := State.lineAct_linked (m := m) htz hlm hh t.lines[l.line]
        rw [Zone.moved_actionSet] at hact
        simp only [Vector.getElem_set_self]
        rw [← show t.lines = s.lines by rw [ht]]
        exact hact
      · rw [State.lineAct_not_linked htz (by rw [hlm]; rintro _ ⟨⟩ he; exact hli (congrArg Fin.val he))]
        simp only [Vector.getElem_set, hli, if_false, ht]
  rw [h.zoneStep_eq, ← ht, State.takeActions_eq t z _ m htz, hlines]
  simp only [hevents, hring, Zone.moved_owner]
  rw [show t.capture = s.capture by rw [ht]]

/-- Settles O28: the step is the actions of the one transition, and the link's line is held, by the zone's owner. -/
theorem loneTransitionTakesItsActions : Obligations.LoneTransitionTakesItsActions := by
  intro c z y m s ho hz hc hs hothers
  dsimp only
  have hheld : ∀ l ∈ y.link, s.lineHeld l.line = true := fun l hl => by
    obtain ⟨-, -, -, -, hlink, -⟩ := ho.1 z y hz
    obtain ⟨x, hx, -⟩ := Option.map_eq_some_iff.mp (hlink l hl)
    rw [State.lineHeld, hx]; rfl
  rw [LoneMove.zoneStep_whole ⟨hz, hc, hs, hothers⟩ hheld rfl]
  subst hc
  have hacted (o : OutLine) (trigger follow : Bool) (d : Drive) : o.acted trigger follow d =
      match o.mode with
      | .direct => o
      | .follow => if follow then o.driven d else o
      | .pulse =>
        if trigger then
          match o.timer, o.retrigger with
          | none, _ => ({ o with timer := some o.width.toNat } : OutLine).driven .active
          | some _, .restart => { o with timer := some o.width.toNat }
          | some _, .ignore => o
        else o := by
    obtain ⟨pol, mode, direct, width, retrigger, timer, drive, safe, pin⟩ := o
    cases mode with
    | direct => rfl
    | follow => rfl
    | pulse => simp only [OutLine.acted, OutLine.triggered_of_pulse] <;> rfl
  simp only [hacted]
  cases m <;> rfl

end Sys2Proof.Machine
end

section
/-! SUPPORT. The moves that the blocks are made of: every command is a sequence of a few moves of the tables, so a law
is kept by every step once it is kept by each move. -/

namespace Sys2Proof.Machine

/-! ## The laws of one record -/

/-- The laws of one capture state (R65, R66, R67, R70, R74). -/
abbrev CaptureState.Lawful (x : CaptureState) : Prop :=
  x.ring.length ≤ Config.ringSize ∧ consecutive x.ring x.seqCounter = true ∧ (∀ r ∈ x.ring, r.Lawful) ∧
    (∀ n : CapId, ∀ u ∈ x.subs[n], u.mask ≠ 0) ∧ (x.lossReported = true ↔ x.lost ≠ 0)

theorem ringsLawful_iff {s : State} : RingsLawful s ↔ ∀ p : PortId, (s.capture[p]).Lawful := Iff.rfl

/-- The laws of one event queue, by whether its session is OPEN (R88, R96, R102). -/
abbrev EventQueue.LawfulFor (q : EventQueue) (isOpen : Bool) : Prop :=
  q.records.length ≤ Config.queueSize ∧ (q.overflow ≠ 0 → q.records.length = Config.queueSize) ∧
    q.attn = attnCondition isOpen q.enabled q.records

theorem queuesLawful_iff {s : State} : QueuesLawful s ↔ ∀ p : PortId, (s.queues[p]).LawfulFor (s.sessions[p]).isOpen :=
  Iff.rfl

/-- The laws of one output line, by whether its entry is held and the drive that its following zones give (R118 to
R121). -/
abbrev OutLine.LawfulFor (l : OutLine) (held : Prop) (followed : Drive) : Prop :=
  l.pin = pinLevel l.polarity l.safe l.drive ∧ (¬ held → l = OutLine.defaults l.safe) ∧
    (held → l.drive ≠ .safe ∧ l.width ≠ 0 ∧ l.drivenByMode followed = true)

theorem linesLawful_iff {s : State} :
    LinesLawful s ↔ ∀ k : LineId, (s.lines[k]).LawfulFor (s.claims[lineRes k] ≠ none) (s.followDrive k) := by
  simp only [LinesLawful, OutLine.LawfulFor, not_not]

/-! ## Moves -/

/-- A channel record rewritten: its laws stay, and under a zone so do its modulus and its not being OFF. -/
structure ChannelMove (s : State) (c : ChanId) (x : Channel) : Prop where
  lawful : (s.channels[c]).Lawful → x.Lawful
  zones : (∃ z : ZoneId, ∃ y ∈ s.zones[z], y.channel = c) →
    ((s.channels[c]).mode ≠ .off → x.mode ≠ .off) ∧ x.modulus = (s.channels[c]).modulus

/-- A slot rewritten, whose zones before and after have one link. -/
structure ZoneMove (s : State) (z : ZoneId) (o : Option Zone) (link : Option Link) : Prop where
  old : ∀ y ∈ s.zones[z], y.link = link
  new : ∀ y ∈ o, y.link = link
  lawful : OwnershipLawful s → ∀ y ∈ o, ZoneLawful s y

/-- A capture that a session may take: the session is OPEN, or the capture serves its subscription. -/
structure CaptureMove (s : State) (p : PortId) (mask : Byte) : Prop where
  opened : (s.sessions[p]).isOpen = true ∨ ∃ n : CapId, (s.capture[p]).subs[n] ≠ none
  mask : RingsLawful s → mask ≠ 0

/-- A capture state rewritten, of an OPEN session or with nothing left in it. -/
structure RingMove (s : State) (p : PortId) (x : CaptureState) : Prop where
  opened : (s.sessions[p]).isOpen = true ∨ x = CaptureState.fresh
  lawful : (s.capture[p]).Lawful → x.Lawful

/-- A queue rewritten, of an OPEN session or with nothing left in it. -/
structure QueueMove (s : State) (p : PortId) (q : EventQueue) : Prop where
  opened : (s.sessions[p]).isOpen = true ∨ q.records = [] ∧ q.overflow = 0
  lawful : (s.queues[p]).LawfulFor (s.sessions[p]).isOpen → q.LawfulFor (s.sessions[p]).isOpen

/-- A line rewritten within its laws. -/
def LineMove (s : State) (k : LineId) (l : OutLine) : Prop :=
  (s.lines[k]).LawfulFor (s.claims[lineRes k] ≠ none) (s.followDrive k) →
    l.LawfulFor (s.claims[lineRes k] ≠ none) (s.followDrive k)

/-- A law that every move of the tables, but a teardown, keeps. -/
structure TableLaw (P : State → Prop) : Prop where
  channel : ∀ {s c x}, ChannelMove s c x → P s → P (s.setChannel c x)
  posted : ∀ {s} es, P s → P (s.posted es)
  resynced : ∀ {s} c, P s → P (s.resynced c)
  zoneStep : ∀ {s} c, P s → P (s.zoneStep c)
  zone : ∀ {s z o link}, ZoneMove s z o link → P s → P ((s.setZone z o).recomputeLink link)
  capture : ∀ {s p} cause {mask}, CaptureMove s p mask → P s → P (s.takeCapture p cause mask).1
  ring : ∀ {s p x}, RingMove s p x → P s → P (s.setCapture p x)
  capLevel : ∀ {s} n x, P s → P (s.setCapLevel n x)
  queue : ∀ {s p q}, QueueMove s p q → P s → P (s.setQueue p q)
  claim : ∀ {s p e}, s.claims[e] = none → (s.sessions[p]).isOpen = true → P s →
    P ((s.setClaim e (some ⟨p, s.timestamp⟩)).claimedDrive e)
  release : ∀ {s p e}, s.holder e = some p → s.releaseInUse e = false → P s → P (s.freeClaim p e)
  line : ∀ {s k l}, LineMove s k l → P s → P (s.setLine k l)

/-! ## The moves of the channels -/

/-- Mode and modulus kept are kept under every zone. -/
theorem ChannelMove.of_same {s : State} {c : ChanId} {x : Channel} (hm : x.mode = (s.channels[c]).mode)
    (hM : x.modulus = (s.channels[c]).modulus) (hl : (s.channels[c]).Lawful → x.Lawful) : ChannelMove s c x :=
  ⟨hl, fun _ => ⟨fun h => hm ▸ h, hM⟩⟩

theorem Channel.Lawful.tracked {x : Channel} (h : x.Lawful) {v : Levels} (hg : v.g = x.levels.g) :
    ({ x with levels := v } : Channel).Lawful := by
  simpa only [Channel.Lawful, hg] using h

/-- A linear count stays in its range (R9). -/
theorem linearAfter_range {n : Int} (h : Config.countMin ≤ n ∧ n ≤ Config.countMax) (d : Direction) :
    Config.countMin ≤ (linearAfter n d).1 ∧ (linearAfter n d).1 ≤ Config.countMax := by
  simp only [Config.countMin, Config.countMax] at h ⊢
  cases d with
  | up =>
    rw [linearAfter, apply_ite Prod.fst]
    simp only [Config.countMin, Config.countMax]
    split_ifs <;> omega
  | down =>
    rw [linearAfter, apply_ite Prod.fst]
    simp only [Config.countMin, Config.countMax]
    split_ifs <;> omega

/-- A modulus count and its turns stay in their ranges (R10). -/
theorem modulusAfter_range {M : Nat} {n t : Int} (hM : 2 ≤ M) (hn : 0 ≤ n ∧ n < (M : Int))
    (ht : Config.turnsMin ≤ t ∧ t ≤ Config.turnsMax) (d : Direction) :
    (0 ≤ (modulusAfter M n t d).1 ∧ (modulusAfter M n t d).1 < (M : Int)) ∧
      Config.turnsMin ≤ (modulusAfter M n t d).2 ∧ (modulusAfter M n t d).2 ≤ Config.turnsMax := by
  simp only [Config.turnsMin, Config.turnsMax] at ht ⊢
  cases d <;> simp only [modulusAfter, turnsAfter, Config.turnsMin, Config.turnsMax] <;> split_ifs <;>
    dsimp only <;> omega

/-- A step in COUNTING keeps the laws of the channel (R9, R10). -/
theorem Channel.Lawful.stepped {x : Channel} (h : x.Lawful) (hst : x.state = .counting) (d : Direction) :
    (x.stepped d).1.Lawful := by
  obtain ⟨hM, hlin, hmod, hoff, hzero, hheld, hcount, hfault⟩ := h
  have hmode : x.mode ≠ .off := fun e => by rw [hoff.mp e] at hst; cases hst
  by_cases hM0 : x.modulus = 0
  · obtain ⟨hlo, hhi, ht⟩ := hlin hM0
    obtain ⟨hlo', hhi'⟩ := linearAfter_range ⟨hlo, hhi⟩ d
    rw [Channel.stepped, if_pos hM0]
    exact ⟨.inl hM0, fun _ => ⟨hlo', hhi', ht⟩, fun e => absurd hM0 e, hoff, fun e => absurd e hmode, hheld, hcount,
      hfault⟩
  · obtain ⟨hlo, hhi, htl, hth, hw⟩ := hmod hM0
    obtain ⟨⟨hlo', hhi'⟩, htl', hth'⟩ :=
      modulusAfter_range (hM.resolve_left hM0).1 ⟨hlo, hhi⟩ ⟨htl, hth⟩ d
    rw [Channel.stepped, if_neg hM0]
    exact ⟨hM, fun e => absurd e hM0, fun _ => ⟨hlo', hhi', htl', hth', hw⟩, hoff, fun e => absurd e hmode, hheld,
      hcount, hfault⟩

@[simp] theorem Channel.stepped_mode (x : Channel) (d : Direction) : (x.stepped d).1.mode = x.mode := by
  rw [Channel.stepped]; split <;> rfl
@[simp] theorem Channel.stepped_modulus (x : Channel) (d : Direction) : (x.stepped d).1.modulus = x.modulus := by
  rw [Channel.stepped]; split <;> rfl

theorem gateState_ne_off (u g : Bool) : gateState u g ≠ .off := by cases u <;> cases g <;> simp [gateState]
theorem gateState_ne_fault (u g : Bool) : gateState u g ≠ .fault := by cases u <;> cases g <;> simp [gateState]
theorem gateState_eq_held {u g : Bool} : gateState u g = .held ↔ u = true ∧ g = false := by
  cases u <;> cases g <;> simp [gateState]
theorem gateState_eq_counting {u g : Bool} : gateState u g = .counting ↔ u = false ∨ g = true := by
  cases u <;> cases g <;> simp [gateState]

/-- A channel that is not OFF and follows its gate is lawful in its state (R3, R12). -/
theorem Channel.Lawful.gated {x : Channel} (h : x.Lawful) (hm : x.mode ≠ .off) (u g i : Bool) (im : Bool) (v : Levels)
    (hv : v.g = g) :
    ({ x with gateUse := u, invert := i, indexMark := im, levels := v, state := gateState u g } : Channel).Lawful := by
  subst hv
  obtain ⟨hM, hlin, hmod, -⟩ := h
  refine ⟨hM, hlin, hmod, ⟨fun e => absurd e hm, fun e => absurd e (gateState_ne_off u _)⟩, fun e => absurd e hm,
    fun e => ?_, fun e => ?_, fun e => absurd e (gateState_ne_fault u _)⟩
  · exact gateState_eq_held.mp e
  · exact gateState_eq_counting.mp e

theorem Channel.Lawful.mode_ne_off {x : Channel} (h : x.Lawful) (hst : x.state ≠ .off) : x.mode ≠ .off := by
  obtain ⟨-, -, -, hoff, -⟩ := h
  exact fun e => hst (hoff.mp e)

/-- New gate settings and levels keep the laws once a COUNTING or HELD channel follows its gate (R12, R21). -/
theorem Channel.Lawful.regated {x : Channel} (h : x.Lawful) (u i im : Bool) (v : Levels) :
    ({ x with gateUse := u, invert := i, indexMark := im, levels := v } : Channel).regated.Lawful := by
  obtain ⟨mode, M, inv, gu, ix, st, n, t, rf, wr, hm, mk, fc, lv⟩ := x
  cases st with
  | off => simpa [Channel.regated, Channel.Lawful] using h
  | fault => simpa [Channel.regated, Channel.Lawful] using h
  | counting => exact h.gated (h.mode_ne_off (by simp)) u v.g i im v rfl
  | held => exact h.gated (h.mode_ne_off (by simp)) u v.g i im v rfl

theorem Channel.Lawful.gateChanged {x : Channel} (h : x.Lawful) : x.gateChanged.Lawful := by
  rw [Channel.gateChanged]
  dsimp only
  split
  · exact h.regated x.gateUse x.invert x.indexMark _
  · rename_i hu
    obtain ⟨hM, hlin, hmod, hoff, hzero, hheld, hcount, hfault⟩ := h
    refine ⟨hM, hlin, hmod, hoff, hzero, fun e => absurd (hheld e).1 hu, fun _ => .inl (by simpa using hu), hfault⟩

theorem Channel.gateChanged_same (x : Channel) :
    x.gateChanged.mode = x.mode ∧ x.gateChanged.modulus = x.modulus := by
  rw [Channel.gateChanged]
  dsimp only
  split
  · rw [Channel.regated_eq]; exact ⟨rfl, rfl⟩
  · exact ⟨rfl, rfl⟩

/-- A configuration keeps the laws (R20, R21). -/
theorem Channel.Lawful.configured {x : Channel} (h : x.Lawful) {f : ChanSetup}
    (hf : f.modulus ≠ 1 ∧ f.modulus ≤ Config.maxModulus) : (x.configured f).Lawful := by
  by_cases hd : f.mode ≠ x.mode ∨ f.modulus ≠ x.modulus
  · rw [Channel.configured_of_changes hd, ← gateState_eq]
    have hM : f.modulus = 0 ∨ 2 ≤ f.modulus ∧ f.modulus ≤ Config.maxModulus := by omega
    refine ⟨hM, fun _ => by simp [Config.countMin, Config.countMax], fun hne => ?_, ?_, fun _ => by simp,
      fun e => ?_, fun e => ?_, fun e => ?_⟩
    · have hne0 : f.modulus ≠ 0 := hne
      simp [Config.turnsMin, Config.turnsMax, Nat.pos_of_ne_zero hne0]
    · by_cases hoff : f.mode = .off
      · simp [hoff]
      · simp [hoff, gateState_ne_off]
    · dsimp only at e
      split at e
      · cases e
      · exact gateState_eq_held.mp e
    · dsimp only at e
      split at e
      · cases e
      · exact gateState_eq_counting.mp e
    · dsimp only at e
      split at e
      · cases e
      · exact absurd e (gateState_ne_fault _ _)
  · obtain ⟨hm, hM⟩ : f.mode = x.mode ∧ f.modulus = x.modulus := by simpa [not_or] using hd
    have hsame : x.configured f =
        ({ x with gateUse := f.gateUse, invert := f.invert, indexMark := f.indexMark } : Channel).regated := by
      rw [Channel.configured_of_same hd, Channel.regated_eq, hm, hM, gateState_eq]
    rw [hsame]
    exact h.regated f.gateUse f.invert f.indexMark x.levels

theorem Channel.configured_fields (x : Channel) (f : ChanSetup) :
    (x.configured f).mode = f.mode ∧ (x.configured f).modulus = f.modulus := by
  by_cases hd : f.mode ≠ x.mode ∨ f.modulus ≠ x.modulus
  · rw [Channel.configured_of_changes hd]; exact ⟨rfl, rfl⟩
  · rw [Channel.configured_of_same hd]; exact ⟨rfl, rfl⟩

theorem Channel.Lawful.faulted {x : Channel} (h : x.Lawful) (hm : x.mode = .quad) : x.faulted.Lawful := by
  obtain ⟨hM, hlin, hmod, -⟩ := h
  refine ⟨hM, hlin, hmod, ?_, ?_, ?_, ?_, ?_⟩ <;> simp [Channel.faulted, hm]

section
variable {s : State} {c : ChanId}

theorem ChannelMove.tracked {v : Levels} (hg : v.g = (s.channels[c]).levels.g) :
    ChannelMove s c { s.channels[c] with levels := v } := .of_same rfl rfl fun h => h.tracked hg

theorem ChannelMove.stepped (hst : (s.channels[c]).state = .counting) (d : Direction) :
    ChannelMove s c ((s.channels[c]).stepped d).1 :=
  .of_same (Channel.stepped_mode _ d) (Channel.stepped_modulus _ d) fun h => h.stepped hst d

theorem ChannelMove.faulted (hm : (s.channels[c]).mode = .quad) : ChannelMove s c (s.channels[c]).faulted :=
  .of_same rfl rfl fun h => h.faulted hm

theorem ChannelMove.marked (hst : (s.channels[c]).state = .counting) (m : Option IndexMark) :
    ChannelMove s c { s.channels[c] with mark := m } := by
  refine .of_same rfl rfl fun h => ?_
  have hm := h.mode_ne_off (by rw [hst]; simp)
  obtain ⟨hM, hlin, hmod, hoff, -, hheld, hcount, hfault⟩ := h
  exact ⟨hM, hlin, hmod, hoff, fun e => absurd e hm, hheld, hcount, hfault⟩

/-- A new position in range, in a channel that is not OFF (R16, R22). -/
theorem ChannelMove.positioned {n t : Int} {wrapped homing : Bool} (hm : (s.channels[c]).mode ≠ .off)
    (hw : (s.channels[c]).modulus ≠ 0 → (s.channels[c]).wrapped = false → wrapped = false)
    (hh : (s.channels[c]).homing = false → homing = false)
    (hlin : (s.channels[c]).modulus = 0 → Config.countMin ≤ n ∧ n ≤ Config.countMax ∧ t = 0)
    (hmod : (s.channels[c]).modulus ≠ 0 →
      0 ≤ n ∧ n < ((s.channels[c]).modulus : Int) ∧ Config.turnsMin ≤ t ∧ t ≤ Config.turnsMax) :
    ChannelMove s c
      { s.channels[c] with count := n, turns := t, referenced := true, wrapped := wrapped, homing := homing } := by
  refine .of_same rfl rfl fun ⟨hM, _, hmod', hoff, _, hheld, hcount, hfault⟩ => ?_
  refine ⟨hM, hlin, fun hM0 => ?_, hoff, fun e => absurd e hm, hheld, hcount, fun e => ⟨(hfault e).1, hh (hfault e).2⟩⟩
  obtain ⟨h1, h2, h3, h4⟩ := hmod hM0
  obtain ⟨-, -, -, -, hwr⟩ := hmod' hM0
  exact ⟨h1, h2, h3, h4, hw hM0 hwr⟩

theorem ChannelMove.armed (ho : (s.channels[c]).state ≠ .off) (hf : (s.channels[c]).state ≠ .fault) (x : Bool) :
    ChannelMove s c { s.channels[c] with homing := x } := by
  refine .of_same rfl rfl fun h => ?_
  have hm := h.mode_ne_off ho
  obtain ⟨hM, hlin, hmod, hoff, -, hheld, hcount, -⟩ := h
  exact ⟨hM, hlin, hmod, hoff, fun e => absurd e hm, hheld, hcount, fun e => absurd e hf⟩

theorem ChannelMove.cleared (hst : (s.channels[c]).state = .fault) :
    ChannelMove s c { s.channels[c] with
      state := gateState (s.channels[c]).gateUse (s.channels[c]).levels.g } :=
  .of_same rfl rfl fun h => h.gated (h.mode_ne_off (by rw [hst]; simp)) _ _ _ _ _ rfl

theorem ChannelMove.configured {f : ChanSetup} (hf : f.modulus ≠ 1 ∧ f.modulus ≤ Config.maxModulus)
    (hu : s.configInUse c f = false) : ChannelMove s c ((s.channels[c]).configured f) := by
  obtain ⟨hm, hM⟩ := Channel.configured_fields (s.channels[c]) f
  refine ⟨fun h => h.configured hf, fun hz => ?_⟩
  rw [hm, hM]
  have hno := mt State.configInUse_iff.mpr (by rw [hu]; simp : ¬ s.configInUse c f = true)
  exact ⟨fun ho e => hno ⟨hz, .inl ⟨e, ho⟩⟩, not_not.mp fun e => hno ⟨hz, .inr e⟩⟩

end

end Sys2Proof.Machine
end

section
/-! SUPPORT. Every command of the blocks is a sequence of moves of the tables: what the moves keep, the transitions of
the inputs and the requests of the blocks keep. -/

namespace Sys2Proof.Machine

/-! ## The moves of the zones, the queues and the lines -/

/-- A queue that is attended to after a rewriting within its size is lawful (R102). -/
theorem EventQueue.attend_lawful {q : EventQueue} {isOpen : Bool} (hlen : q.records.length ≤ Config.queueSize)
    (hover : q.overflow ≠ 0 → q.records.length = Config.queueSize) : (q.attend isOpen).LawfulFor isOpen :=
  ⟨hlen, hover, rfl⟩

/-- A store keeps the laws of the queue of an OPEN session (R95, R96). -/
theorem EventQueue.LawfulFor.store {q : EventQueue} (h : q.LawfulFor true) (r : EventRecord) :
    (q.store true r).LawfulFor true := by
  obtain ⟨hlen, hover, hattn⟩ := h
  rw [EventQueue.store]
  split
  · rename_i hlt
    refine EventQueue.attend_lawful ?_ fun ho => ?_
    · simp only [List.length_append, List.length_singleton]; omega
    · exact absurd (hover ho) (by omega)
  · exact ⟨hlen, fun _ => by dsimp only; omega, hattn⟩

/-- Records handed over keep the laws of the queue of an OPEN session. -/
theorem EventQueue.LawfulFor.filled {q : EventQueue} (h : q.LawfulFor true) (rs : List EventRecord) :
    (q.filled rs).LawfulFor true := by
  induction rs generalizing q with
  | nil => rwa [EventQueue.filled_nil]
  | cons r rs ih =>
    rw [← List.singleton_append, EventQueue.filled_append, ← EventQueue.store_eq_filled]
    exact ih (h.store r)

/-- Reading records out of a queue keeps its laws: where losses were counted the queue was full, so that the OVERFLOW
record finds room (R97). -/
theorem EventQueue.LawfulFor.readOut {q : EventQueue} {isOpen : Bool} (h : q.LawfulFor isOpen) (n : Nat) (now : Word) :
    ((q.readOut isOpen n now).attend isOpen).LawfulFor isOpen := by
  obtain ⟨hlen, hover, -⟩ := h
  rw [EventQueue.readOut]
  dsimp only
  split
  · rename_i hl
    have hn : n ≠ 0 := fun e => hl.2 (by rw [e, List.take_zero])
    have hne : q.records.length ≠ 0 := fun e => hl.2 (by rw [List.length_eq_zero_iff.mp e, List.take_nil])
    have hroom : (q.records.drop n).length < Config.queueSize := by rw [List.length_drop]; omega
    refine EventQueue.attend_lawful ?_ fun ho => ?_
    · rw [EventQueue.store, if_pos hroom]
      simp only [EventQueue.attend, List.length_append, List.length_singleton]; omega
    · rw [EventQueue.store, if_pos hroom] at ho
      exact absurd rfl ho
  · rename_i hl
    refine EventQueue.attend_lawful ?_ fun ho => ?_
    · rw [List.length_drop]; omega
    · have hempty : q.records.take n = [] := by
        by_contra hne; exact hl ⟨ho, hne⟩
      have hfull := hover ho
      have hn : n = 0 := by
        rcases List.take_eq_nil_iff.mp hempty with hn | hr
        · exact hn
        · rw [hr] at hfull; simp [Config.queueSize] at hfull
      simpa [hn] using hfull

theorem LineMove.of_held {s : State} {k : LineId} {l : OutLine} (hh : s.claims[lineRes k] ≠ none)
    (hl : (s.lines[k]).LawfulFor True (s.followDrive k) → l.LawfulFor True (s.followDrive k)) : LineMove s k l := by
  rw [LineMove, eq_true hh]; exact hl

theorem State.claims_of_holder {s : State} {r : ResId} {p : PortId} (h : s.holder r = some p) : s.claims[r] ≠ none := by
  intro e
  rw [State.holder, e] at h
  cases h

/-- A line set up in a mode is lawful (R121, R132). -/
theorem OutLine.setUp_lawful (l : OutLine) {f : LineSetup} (hw : f.width ≠ 0) {followed : Drive}
    (hf : followed ≠ .safe) : (l.setUp f followed).LawfulFor True followed := by
  refine ⟨rfl, fun h => absurd trivial h, fun _ => ?_⟩
  obtain ⟨mode, polarity, width, retrigger⟩ := f
  cases mode with
  | direct =>
    refine ⟨?_, hw, by simp [OutLine.setUp, OutLine.driven, OutLine.drivenByMode, OutLine.directDrive] <;> rfl⟩
    cases hd : l.direct <;> simp [OutLine.setUp, OutLine.driven, OutLine.directDrive, hd]
  | follow => exact ⟨hf, hw, by simp [OutLine.setUp, OutLine.driven, OutLine.drivenByMode]⟩
  | pulse => exact ⟨by simp [OutLine.setUp, OutLine.driven], hw,
    by simp [OutLine.setUp, OutLine.driven, OutLine.drivenByMode]⟩

/-- A direct level set on a DIRECT line keeps its laws (R133). -/
theorem OutLine.LawfulFor.set {l : OutLine} {followed : Drive} (h : l.LawfulFor True followed) (hm : l.mode = .direct)
    (x : Bool) :
    (({ l with direct := x } : OutLine).driven (if x then .active else .inactive)).LawfulFor True followed := by
  obtain ⟨-, -, hheld⟩ := h
  obtain ⟨-, hw, hd⟩ := hheld trivial
  refine ⟨rfl, fun h => absurd trivial h, fun _ => ⟨by cases x <;> simp [OutLine.driven], hw, ?_⟩⟩
  simp only [OutLine.drivenByMode, hm, Bool.and_eq_true] at hd
  simp [OutLine.driven, OutLine.drivenByMode, hm, OutLine.directDrive, hd.2]

/-- The end of a due pulse keeps the laws of its line (R128). -/
theorem OutLine.LawfulFor.pulseEnded {l : OutLine} {held : Prop} {followed : Drive} (h : l.LawfulFor held followed)
    {n : Nat} (ht : l.timer = some n) :
    (({ l with timer := none } : OutLine).driven .inactive).LawfulFor held followed := by
  obtain ⟨-, hfree, hheld⟩ := h
  refine ⟨rfl, fun hn => ?_, fun hh => ?_⟩
  · rw [hfree hn] at ht; cases ht
  · obtain ⟨-, hw, hd⟩ := hheld hh
    refine ⟨by simp [OutLine.driven], hw, ?_⟩
    cases hm : l.mode <;> simp [OutLine.drivenByMode, hm, ht] at hd
    simp [OutLine.driven, OutLine.drivenByMode]

theorem Zone.rawState_ne_idle (x : Zone) (M : Nat) (n : Int) : x.rawState M n ≠ .idle := by
  rw [Zone.rawState]; split <;> simp

/-- The slot of a zone that ZONE_CREATE makes. -/
theorem ZoneMove.created {s : State} {p : PortId} {z : ZoneId} {c : ChanId} {q : ZoneParams} {x : Zone}
    (ho : (s.sessions[p]).isOpen = true) (hz : s.zones[z] = none) (hm : (s.channels[c]).mode ≠ .off)
    (hx : newZone p c (s.channels[c]).modulus q = some x) (hl : s.linkHeld p x.link = true) :
    ZoneMove s z (some (s.rawEvaluated x)) x.link := by
  refine ⟨fun y hy => ?_, fun y hy => ?_, fun _ y hy => ?_⟩
  · rw [hz] at hy; cases hy
  · cases hy; rfl
  · cases hy
    rw [newZone_eq] at hx
    simp only [Option.ite_none_right_eq_some, Option.some.injEq] at hx
    obtain ⟨⟨hb, -, hent, -, hext, hlink, htr⟩, rfl⟩ := hx
    refine ⟨ho, hm, boundsFit_iff.mpr hb, ?_, fun l hll => ?_, fun hnone => ?_⟩
    · simp only [State.rawEvaluated, createdZone, true_iff]
      exact Zone.rawState_ne_idle _ _ _
    · exact not_not.mp fun hne => State.linkHeld_iff.mp hl ⟨l, hll, hne⟩
    · have hline : ¬ q.linkLine ≠ 0xFF := fun hne => by
        have := (givenLink_isSome hlink).mpr hne
        rw [show givenLink q.linkLine q.linkFollow = none from hnone] at this
        cases this
      obtain ⟨he, hx⟩ := htr hline
      exact ⟨(yesNo_eq_false hent).mpr he, (yesNo_eq_false hext).mpr hx⟩

/-- The slot of a zone whose armed flag and state are rewritten together (R37). -/
theorem ZoneMove.rearmed {s : State} {z : ZoneId} {x : Zone} (hz : s.zones[z] = some x) {armed : Bool} {st : ZoneState}
    (ha : armed = true ↔ st ≠ .idle) : ZoneMove s z (some { x with armed := armed, state := st }) x.link := by
  refine ⟨fun y hy => ?_, fun y hy => ?_, fun ho y hy => ?_⟩
  · rw [hz] at hy; cases hy; rfl
  · cases hy; rfl
  · cases hy
    obtain ⟨h1, h2, h3, -, h5, h6⟩ := ho.1 z x hz
    exact ⟨h1, h2, h3, ha, h5, h6⟩

theorem ZoneMove.deleted {s : State} {z : ZoneId} {x : Zone} (hz : s.zones[z] = some x) :
    ZoneMove s z none x.link := by
  refine ⟨fun y hy => ?_, fun y hy => (nomatch hy), fun _ y hy => (nomatch hy)⟩
  rw [hz] at hy; cases hy; rfl

/-- A preset in range is in the channel's range (R22). -/
theorem ChannelMove.preset {s : State} {c : ChanId} {count : Word} {turns : Half} (hm : (s.channels[c]).mode ≠ .off)
    (hr : (s.channels[c]).presetInRange count.toInt turns.toInt = true) :
    ChannelMove s c
      { s.channels[c] with count := count.toInt, turns := turns.toInt, referenced := true, wrapped := false } := by
  rw [Channel.presetInRange] at hr
  refine ChannelMove.positioned hm (fun _ _ => rfl) (fun h => h) (fun hM => ?_) fun hM => ?_
  · rw [if_pos hM, beq_iff_eq] at hr
    exact ⟨BitVec.le_toInt count, Int.le_of_lt_add_one (BitVec.toInt_lt (x := count)), hr⟩
  · rw [if_neg hM, decide_eq_true_eq] at hr
    exact ⟨hr.1, hr.2, BitVec.le_toInt turns, Int.le_of_lt_add_one (BitVec.toInt_lt (x := turns))⟩

/-! ## The inputs -/

/-- An illegal transition is one of both inputs in QUAD (R6). -/
theorem pairEffect_illegal_mode {mode : ChanMode} {invert : Bool} {old : Levels} {change : PairChange}
    (h : pairEffect mode invert old change = .illegal) : mode = .quad := by
  cases mode with
  | quad => rfl
  | off => cases h
  | eventDir => simp only [pairEffect] at h; split at h <;> cases h
  | eventUp => simp only [pairEffect] at h; split at h <;> cases h

theorem State.markIndex_state (s : State) (c : ChanId) :
    ((s.markIndex c).channels[c]).state = (s.channels[c]).state := by
  rw [State.markIndex]
  split
  · dsimp only
    split
    · rw [State.post_eq_posted]; simp
    · simp
  · rfl

/-- A home position is in every channel's range (R16). -/
theorem ChannelMove.homed {s : State} {c : ChanId} (hst : (s.channels[c]).state = .counting) :
    ChannelMove s c { s.channels[c] with count := 0, turns := 0, referenced := true, homing := false } := by
  refine .of_same rfl rfl fun h => ?_
  refine (ChannelMove.positioned (s := s) (c := c) (n := 0) (t := 0) (wrapped := (s.channels[c]).wrapped)
    (homing := false) (h.mode_ne_off (by rw [hst]; simp)) (fun _ h => h) (fun _ => rfl)
    (fun _ => by simp [Config.countMin, Config.countMax]) fun hM => ?_).lawful h
  have : (0 : Int) < (s.channels[c]).modulus := by omega
  simp only [Config.turnsMin, Config.turnsMax]
  omega

/-- The kinds whose effects are moves of the tables alone, the session that asks being OPEN. -/
def tableKinds : List Kind :=
  [.chanConfig, .chanPreset, .chanHome, .chanClearFault, .zoneCreate, .zoneArm, .zoneDisarm, .zoneDelete, .capture,
   .capSubscribe, .capPolicy, .capAck, .capStatus, .evtRead, .evtAttn, .claim, .release, .outMode, .outSet]

namespace TableLaw
variable {P : State → Prop} {s : State}

theorem broadcast (hP : TableLaw P) (ex : Option PortId) (e : Event) (hs : P s) : P (s.broadcast ex e) := by
  rw [State.broadcast_eq_posted]; exact hP.posted _ hs

theorem discontinuity (hP : TableLaw P) (c : ChanId) (hs : P s) : P (s.discontinuity c) := by
  rw [State.discontinuity_eq]; exact hP.resynced c hs

theorem stepChannel (hP : TableLaw P) {c : ChanId} (d : Direction) (hst : (s.channels[c]).state = .counting)
    (hs : P s) : P (s.stepChannel c d) := by
  have hx := hP.channel (ChannelMove.stepped hst d) hs
  rw [State.stepChannel]
  dsimp only
  split
  · exact hP.discontinuity c hx
  · exact hP.zoneStep c hx

theorem faultChannel (hP : TableLaw P) {c : ChanId} (hm : (s.channels[c]).mode = .quad) (hs : P s) :
    P (s.faultChannel c) :=
  hP.broadcast _ _ (hP.channel (ChannelMove.faulted hm) hs)

theorem pair (hP : TableLaw P) (c : ChanId) (change : PairChange) (hs : P s) : P (s.abTransition c change) := by
  have hx : P (s.setChannel c { s.channels[c] with levels := (s.channels[c]).levels.changed change }) :=
    hP.channel (ChannelMove.tracked (Levels.changed_g _ change)) hs
  have hget : (s.setChannel c { s.channels[c] with levels := (s.channels[c]).levels.changed change }).channels[c] =
      { s.channels[c] with levels := (s.channels[c]).levels.changed change } := by simp
  rw [State.abTransition]
  split
  · rename_i hst
    split
    · exact hx
    · exact hP.stepChannel _ (by rw [hget]; exact hst) hx
    · rename_i he
      exact hP.faultChannel (by rw [hget]; exact pairEffect_illegal_mode he) hx
  · exact hx

theorem markIndex (hP : TableLaw P) {c : ChanId} (hst : (s.channels[c]).state = .counting) (hs : P s) :
    P (s.markIndex c) := by
  rw [State.markIndex]
  split
  · have hx := hP.channel
      (ChannelMove.marked hst (some ⟨(s.channels[c]).count, (s.channels[c]).turns, s.timestamp⟩)) hs
    dsimp only
    split
    · rw [State.post_eq_posted]; exact hP.posted _ hx
    · exact hx
  · exact hs

theorem fireHoming (hP : TableLaw P) {c : ChanId} (hst : (s.channels[c]).state = .counting) (hs : P s) :
    P (s.fireHoming c) := by
  rw [State.fireHoming]
  split
  · exact hP.discontinuity c (hP.broadcast _ _ (hP.channel (ChannelMove.homed hst) hs))
  · exact hs

theorem index (hP : TableLaw P) (c : ChanId) (hs : P s) : P (s.indexTransition c) := by
  have hx := hP.channel (s := s) (c := c)
    (ChannelMove.tracked (v := { (s.channels[c]).levels with i := !(s.channels[c]).levels.i }) rfl) hs
  rw [State.indexTransition]
  dsimp only
  split
  · rename_i hst
    have hst' : ((s.setChannel c { s.channels[c] with
        levels := { (s.channels[c]).levels with i := !(s.channels[c]).levels.i } }).channels[c]).state = .counting := by
      simpa using hst.1
    exact hP.fireHoming ((State.markIndex_state _ c).trans hst') (hP.markIndex hst' hx)
  · exact hx

theorem gate (hP : TableLaw P) (c : ChanId) (hs : P s) : P (s.setChannel c (s.channels[c]).gateChanged) :=
  hP.channel (.of_same (Channel.gateChanged_same _).1 (Channel.gateChanged_same _).2 fun h => h.gateChanged) hs

theorem edge (hP : TableLaw P) (n : CapId) (hs : P s) : P (s.lineEdge n) := by
  have hd : ∀ (p : PortId) (rising : Bool) (t : State), P t → P (t.deliverEdge n rising p) := by
    intro p rising t ht
    rw [State.deliverEdge]
    split
    · rename_i u hu
      split
      · refine hP.capture _ ⟨.inr ⟨n, by rw [hu]; simp⟩, fun hr => ?_⟩ ht
        obtain ⟨-, -, -, hsub, -⟩ := hr p
        exact hsub n u hu
      · exact ht
    · exact ht
  exact hd 2 _ _ (hd 1 _ _ (hd 0 _ _ (hP.capLevel n _ hs)))

theorem pulse (hP : TableLaw P) {k : LineId} {n : Nat} (ht : (s.lines[k]).timer = some n) (hs : P s) :
    P (s.setLine k (({ s.lines[k] with timer := none } : OutLine).driven .inactive)) :=
  hP.line (fun h => h.pulseEnded ht) hs

/-! ## The requests -/

theorem configure (hP : TableLaw P) {p : PortId} {c : ChanId} {f : ChanSetup}
    (hf : f.modulus ≠ 1 ∧ f.modulus ≤ Config.maxModulus) (hu : s.configInUse c f = false) (hs : P s) :
    P (s.configure p c f) := by
  have hx := hP.posted (toOthers p (.channelReconfigured c)) (hP.channel (ChannelMove.configured hf hu) hs)
  rw [State.configure_eq]
  split
  · exact hP.resynced c hx
  · exact hx

theorem preset (hP : TableLaw P) {p : PortId} {c : ChanId} {count : Word} {turns : Half}
    (hm : (s.channels[c]).mode ≠ .off) (hr : (s.channels[c]).presetInRange count.toInt turns.toInt = true)
    (hs : P s) : P (s.preset p c count.toInt turns.toInt) :=
  hP.discontinuity c (hP.broadcast _ _ (hP.channel (ChannelMove.preset hm hr) hs))

theorem clearFault (hP : TableLaw P) (c : ChanId) (hs : P s) : P (s.clearFault c) := by
  rw [State.clearFault]
  split
  · rename_i hst
    exact hP.broadcast _ _ (hP.channel (ChannelMove.cleared hst) hs)
  · exact hs

/-- The requests of the blocks are moves of the tables. -/
theorem effect (hP : TableLaw P) {p : PortId} {k : Kind} {o : State × Reply} (he : Effect p s k o)
    (hk : k ∈ tableKinds) (ho : (s.sessions[p]).isOpen = true) (hs : P s) : P o.1 := by
  cases he with
  | unchanged => exact hs
  | chanConfig c f r hf hh hu => exact hP.configure hf hu hs
  | chanPreset c count turns r hh hm hr => exact hP.preset hm hr hs
  | chanHome c x r hh hoff hfault => exact hP.channel (ChannelMove.armed hoff hfault x) hs
  | chanClearFault c r hh => exact hP.clearFault c hs
  | zoneCreate z c q x r hz hm hx hl => exact hP.zone (ZoneMove.created ho hz hm hx hl) hs
  | zoneArm z x r hz hown =>
    exact hP.zone (ZoneMove.rearmed hz ⟨fun _ => Zone.rawState_ne_idle _ _ _, fun _ => rfl⟩) hs
  | zoneDisarm z x r hz hown => exact hP.zone (ZoneMove.rearmed hz (by simp)) hs
  | zoneDelete z x r hz hown => exact hP.zone (ZoneMove.deleted hz) hs
  | capture mask r hm => exact hP.capture _ ⟨.inl ho, fun _ => hm⟩ hs
  | capSubscribe n u r hu =>
    refine hP.ring ⟨.inl ho, fun ⟨h1, h2, h3, h4, h5⟩ => ⟨h1, h2, h3, fun m w hw => ?_, h5⟩⟩ hs
    simp only [Fin.getElem_fin, Vector.getElem_set] at hw
    split at hw
    · exact hu w hw
    · exact h4 m w hw
  | capPolicy x r => exact hP.ring ⟨.inl ho, fun h => h⟩ hs
  | capAck oldest rest r hr =>
    refine hP.ring ⟨.inl ho, fun ⟨h1, h2, h3, h4, h5⟩ => ?_⟩ hs
    rw [hr] at h1 h2 h3
    simp only [consecutive, Bool.and_eq_true] at h2
    exact ⟨by simp only [List.length_cons] at h1; dsimp only; omega, h2.2,
      fun x hx => h3 x (List.mem_cons_of_mem _ hx), h4, h5⟩
  | capStatus r => exact hP.ring ⟨.inl ho, fun ⟨h1, h2, h3, h4, _⟩ => ⟨h1, h2, h3, h4, by simp⟩⟩ hs
  | evtRead n r => exact hP.queue ⟨.inl ho, fun h => h.readOut n _⟩ hs
  | evtAttn x r => exact hP.queue ⟨.inl ho, fun ⟨h1, h2, _⟩ => EventQueue.attend_lawful h1 h2⟩ hs
  | claim e r hc => exact hP.claim hc ho hs
  | release e r hh hu => exact hP.release hh hu hs
  | outMode k f r hh hw =>
    exact hP.line (LineMove.of_held (State.claims_of_holder hh) fun _ =>
      OutLine.setUp_lawful _ hw (State.followDrive_ne_safe _ _)) hs
  | outSet k x r hh hm => exact hP.line (LineMove.of_held (State.claims_of_holder hh) fun h => h.set hm x) hs
  | openSession | closeSession | hubReset | await | cancel | portStatus => simp [tableKinds] at hk

end TableLaw

/-! ## Laws of the blocks from laws of the tables -/

/-- A law of the tables that a teardown, changes at the ports alone, the resets, the time base and OPEN keep too. -/
structure HubLaw (P : State → Prop) extends TableLaw P where
  teardown : ∀ {s p} cause, (s.sessions[p]).isOpen = true → P s → P (s.tornDown p cause)
  ports : ∀ {s t}, PortsOnly s t → P s → P t
  poweredOn : ∀ s pins, P s → P (s.poweredOn pins)
  increment : ∀ s, P s → P s.increment
  resetShared : ∀ s, P s → P s.resetShared
  openSession : ∀ {s} p n, (s.sessions[p]).isOpen = false → P s →
    P (((s.setSession p ((s.sessions[p]).opened n)).setCapture p CaptureState.fresh).setQueue p EventQueue.fresh)

theorem CaptureState.fresh_lawful : CaptureState.fresh.Lawful := by
  refine ⟨by simp [CaptureState.fresh], rfl, by simp [CaptureState.fresh], fun n u hu => ?_,
    by simp [CaptureState.fresh]⟩
  simp [CaptureState.fresh] at hu

theorem EventQueue.emptied_lawful (q : EventQueue) (isOpen : Bool) : q.emptied.LawfulFor isOpen := by
  refine ⟨by simp [EventQueue.emptied], fun h => absurd rfl h, ?_⟩
  simp [EventQueue.emptied, attnCondition]

namespace HubLaw
variable {P : State → Prop} {s : State}

/-- The end of the sessions of a list at a HUB_RESET is the end of AWAITs and teardowns (R151, step 1). -/
theorem resetSessions (hP : HubLaw P) (l : List PortId) (hs : P s) : P (l.foldl State.resetSession s) := by
  induction l generalizing s with
  | nil => exact hs
  | cons p l ih =>
    refine ih ?_
    rw [State.resetSession]
    split
    · rename_i ho
      have hp := PortsOnly.endAwaitByReset s p
      rw [State.teardown_eq]
      exact hP.teardown _ ((hp.isOpen p).trans ho) (hP.ports hp hs)
    · exact hs

theorem resetPorts (hP : HubLaw P) (l : List PortId) (hs : P s) : P (l.foldl State.resetPort s) := by
  induction l generalizing s with
  | nil => exact hs
  | cons p l ih => exact ih (hP.ports (.setPort _ _ _) hs)

theorem hubReset (hP : HubLaw P) (p : PortId) (hs : P s) : P (s.hubReset p) :=
  hP.queue ⟨.inr ⟨rfl, rfl⟩, fun _ => EventQueue.emptied_lawful _ _⟩
    (hP.ring ⟨.inr rfl, fun _ => CaptureState.fresh_lawful⟩
      (hP.resetPorts _ (hP.resetShared _ (hP.resetSessions _ hs))))

theorem effect (hP : HubLaw P) {p : PortId} {k : Kind} {o : State × Reply} (he : Effect p s k o)
    (ho : Opened s p k) (hs : P s) : P o.1 := by
  by_cases hk : k ∈ tableKinds
  · refine hP.toTableLaw.effect he hk (ho.resolve_right ?_) hs
    rintro (rfl | rfl | rfl) <;> simp [tableKinds] at hk
  cases he with
  | unchanged => exact hs
  | openSession n r hc => exact hP.openSession p n hc hs
  | closeSession r =>
    rw [State.teardown_eq]; exact hP.teardown _ (ho.resolve_right (by simp)) hs
  | hubReset r hh => exact hP.hubReset p hs
  | await tag timeout hq => exact hP.ports ((PortsOnly.setPort s p _).trans (.setSession rfl)) hs
  | cancel a r ha => exact hP.ports ((PortsOnly.setPort s p _).trans (.stopAwait _ p)) hs
  | portStatus r => exact hP.ports (.setPort s p _) hs
  | _ => exact absurd (by simp [tableKinds]) hk

theorem blocksLaw (hP : HubLaw P) : BlocksLaw P where
  ports := hP.ports
  effect := hP.effect
  poweredOn := hP.poweredOn
  pair _ c change := hP.pair c change
  index _ c := hP.index c
  gate _ c := hP.gate c
  edge _ n := hP.edge n
  pulse _ _ ht := hP.pulse ht
  increment := hP.increment
  teardown s p cause ho hs := by rw [State.teardown_eq]; exact hP.teardown cause ho hs

end HubLaw

end Sys2Proof.Machine
end

section
/-! SUPPORT. What each move of the tables leaves alone, and the laws of one table: the channels, the rings and the
queues. -/

namespace Sys2Proof.Machine

/-! ## Frames of the moves -/

/-- A property of every row is kept by a new row that has it. -/
theorem forall_get_set {α : Type} {n : Nat} {Q : Fin n → α → Prop} {v : Vector α n} {i : Fin n} {x : α} (hx : Q i x)
    (hv : ∀ j : Fin n, Q j v[j]) (j : Fin n) : Q j (v.set i x)[j] := by
  by_cases he : i = j
  · subst he; simpa using hx
  · have hne : (i : Nat) ≠ j := fun e => he (Fin.ext e)
    simpa [Vector.getElem_set, hne] using hv j

theorem State.recomputeLink_frame (s : State) (link : Option Link) :
    s.recomputeLink link = { s with lines := (s.recomputeLink link).lines } := by
  rw [State.recomputeLink_eq]

theorem State.claimedDrive_frame (s : State) (r : ResId) :
    s.claimedDrive r = { s with lines := (s.claimedDrive r).lines } := by
  rw [State.claimedDrive]; split <;> rfl

theorem State.takeCapture_frame (s : State) (p : PortId) (cause : CaptureCause) (mask : Byte) :
    (s.takeCapture p cause mask).1 = { s with
      capture := (s.takeCapture p cause mask).1.capture, queues := (s.takeCapture p cause mask).1.queues } := by
  rw [State.takeCapture_eq]; rfl

theorem State.takeCapture_capture (s : State) (p : PortId) (cause : CaptureCause) (mask : Byte) :
    (s.takeCapture p cause mask).1.capture =
      s.capture.set p ((s.capture[p]).meets (s.captureNow cause mask)).1 := by
  rw [State.takeCapture_eq]; rfl

/-- A freed entry leaves all but the queues, the claims and the lines. -/
theorem State.freeClaim_frame {s : State} {p : PortId} {r : ResId} (h : s.holder r = some p) :
    s.freeClaim p r = { s with
      queues := (s.freeClaim p r).queues, claims := (s.freeClaim p r).claims, lines := (s.freeClaim p r).lines } := by
  rw [State.freeClaim_eq s p r h]

/-! A teardown leaves the tables that it does not name. -/

section
variable (s : State) (p : PortId) (cause : CloseCause)

@[simp] theorem State.tornDown_timestamp : (s.tornDown p cause).timestamp = s.timestamp := by
  unfold State.tornDown; rfl
@[simp] theorem State.tornDown_channels : (s.tornDown p cause).channels = s.channels := by
  unfold State.tornDown; rfl
@[simp] theorem State.tornDown_capLevels : (s.tornDown p cause).capLevels = s.capLevels := by
  unfold State.tornDown; rfl
@[simp] theorem State.tornDown_pending : (s.tornDown p cause).pending = s.pending := by
  unfold State.tornDown; rfl
@[simp] theorem State.tornDown_capture : (s.tornDown p cause).capture = s.capture.set p CaptureState.fresh := by
  unfold State.tornDown; rfl
@[simp] theorem State.tornDown_sessions :
    (s.tornDown p cause).sessions =
      s.sessions.set p { s.sessions[p] with isOpen := false, timer := .notRunning, cause := cause } := by
  unfold State.tornDown; rfl
@[simp] theorem State.tornDown_ports :
    (s.tornDown p cause).ports = s.ports.set p { s.ports[p] with cache := none } := by
  unfold State.tornDown; rfl

end

/-- The records that a teardown posts to the other sessions (R113, R116). -/
def State.freedBy (s : State) (p q : PortId) : List Event :=
  if q = p then [] else ((List.finRange 14).filter fun r => s.holder r = some p).map .claimFreed

theorem State.tornDown_queue (s : State) (p : PortId) (cause : CloseCause) (q : PortId) :
    (s.tornDown p cause).queues[q] =
      if q = p then (s.queues[p]).emptied else (s.posted (s.freedBy p)).queues[q] := by
  have h : (s.tornDown p cause).queues = (s.posted (s.freedBy p)).queues.set p (s.queues[p]).emptied := by
    unfold State.tornDown; rfl
  rw [h]
  by_cases he : q = p
  · subst he; simp
  · have hne : (p : Nat) ≠ q := fun e => he (Fin.ext e.symm)
    simp [hne, he]

/-! ## The commands that wait -/

/-- No command reaches the queue of commands. -/
theorem pendingLaw (q : List Instr) : HubLaw fun s => s.pending = q where
  channel _ hs := hs
  posted _ hs := hs
  resynced _ hs := by rw [State.resynced_pending]; exact hs
  zoneStep _ hs := by rw [State.zoneStep_pending]; exact hs
  zone _ hs := by rw [State.recomputeLink_frame]; exact hs
  capture _ _ _ hs := by rw [State.takeCapture_frame]; exact hs
  ring _ hs := hs
  capLevel _ _ hs := hs
  queue _ hs := hs
  claim _ _ hs := by rw [State.claimedDrive_frame]; exact hs
  release hh _ hs := by rw [State.freeClaim_frame hh]; exact hs
  line _ hs := hs
  teardown _ _ hs := by rw [State.tornDown_pending]; exact hs
  ports hp hs := hp.pending.trans hs
  poweredOn _ _ hs := hs
  increment _ hs := hs
  resetShared _ hs := hs
  openSession _ _ _ hs := hs

/-! ## The channels -/

theorem Channel.atReset_lawful (levels : Levels) : (Channel.atReset levels).Lawful := by
  simp [Channel.atReset, Channel.Lawful, Config.countMin, Config.countMax]

/-- Every move keeps the laws of the channels (R2, R3, R10, R12, R13). -/
theorem channelsLaw : HubLaw ChannelsLawful where
  channel hm hs := forall_get_set (Q := fun _ (x : Channel) => x.Lawful) (hm.lawful (hs _)) hs
  posted _ hs := hs
  resynced _ hs := by rw [ChannelsLawful, State.resynced_channels]; exact hs
  zoneStep _ hs := by rw [ChannelsLawful, State.zoneStep_channels]; exact hs
  zone _ hs := by rw [State.recomputeLink_frame]; exact hs
  capture _ _ _ hs := by rw [State.takeCapture_frame]; exact hs
  ring _ hs := hs
  capLevel _ _ hs := hs
  queue _ hs := hs
  claim _ _ hs := by rw [State.claimedDrive_frame]; exact hs
  release hh _ hs := by rw [State.freeClaim_frame hh]; exact hs
  line _ hs := hs
  teardown _ _ hs := by rw [ChannelsLawful, State.tornDown_channels]; exact hs
  ports hp hs := by rw [ChannelsLawful, hp.channels]; exact hs
  poweredOn s pins _ c := by simpa [State.poweredOn] using Channel.atReset_lawful _
  increment _ hs := hs
  resetShared s _ c := by simpa [State.resetShared] using Channel.atReset_lawful _
  openSession _ _ _ hs := hs

/-! ## The capture rings -/

/-- A number one past the end of a run of consecutive numbers continues it (R66). -/
theorem consecutive_concat {l : List CaptureRecord} {n : Half} (h : consecutive l n = true) (r : CaptureRecord) :
    consecutive (l ++ [{ r with seq := n }]) (n + 1) = true := by
  induction l with
  | nil => simp [consecutive]
  | cons x l ih =>
    simp only [consecutive, Bool.and_eq_true, beq_iff_eq] at h
    obtain ⟨hx, hl⟩ := h
    simp only [List.cons_append, consecutive, Bool.and_eq_true, beq_iff_eq, List.length_append, List.length_singleton]
    refine ⟨?_, ih hl⟩
    rw [hx]
    have : BitVec.ofNat 16 (l.length + 1 + 1) = BitVec.ofNat 16 (l.length + 1) + 1 := by
      rw [BitVec.ofNat_add (l.length + 1) 1]; rfl
    rw [this]
    bv_omega

theorem consecutive_drop_one {l : List CaptureRecord} {n : Half} (h : consecutive l n = true) :
    consecutive (l.drop 1) n = true := by
  cases l with
  | nil => exact h
  | cons x l => simp only [consecutive, Bool.and_eq_true] at h; exact h.2

/-- The record of a capture is lawful where its mask names a channel (R67). -/
theorem State.captureNow_lawful (s : State) (cause : CaptureCause) {mask : Byte} (hm : mask ≠ 0) :
    (s.captureNow cause mask).Lawful :=
  ⟨hm, by simp [State.captureNow, Function.comp_def]⟩

/-- A loss counted is not 0. -/
theorem oneMore_ne_zero (n : Half) : BitVec.ofNat 16 (min 65535 (n.toNat + 1)) ≠ 0 := by
  intro h
  have := congrArg BitVec.toNat h
  simp only [BitVec.toNat_ofNat, BitVec.ofNat_eq_ofNat] at this
  omega

/-- A lawful record that meets a lawful ring leaves a lawful ring (the table of 4.4.1). -/
theorem CaptureState.Lawful.meets {x : CaptureState} (h : x.Lawful) {r : CaptureRecord} (hr : r.Lawful) :
    (x.meets r).1.Lawful := by
  obtain ⟨hlen, hcon, hrec, hsub, hloss⟩ := h
  have hrec' : ∀ y ∈ x.ring.drop 1 ++ [{ r with seq := x.seqCounter }], y.Lawful := by
    intro y hy
    rcases List.mem_append.mp hy with hy | hy
    · exact hrec y (List.mem_of_mem_drop hy)
    · rw [List.mem_singleton.mp hy]; exact hr
  rw [CaptureState.meets]
  split
  · rename_i hroom
    refine ⟨?_, consecutive_concat hcon r, fun y hy => ?_, hsub, hloss⟩
    · simp only [List.length_append, List.length_singleton, Config.ringSize]; omega
    · rcases List.mem_append.mp hy with hy | hy
      · exact hrec y hy
      · rw [List.mem_singleton.mp hy]; exact hr
  · split
    · refine ⟨?_, consecutive_concat (consecutive_drop_one hcon) r, hrec', hsub, by simpa using oneMore_ne_zero x.lost⟩
      simp only [List.length_append, List.length_singleton, List.length_drop, Config.ringSize] at hlen ⊢; omega
    · split
      · exact ⟨hlen, hcon, hrec, hsub, hloss⟩
      · exact ⟨hlen, hcon, hrec, hsub, by simpa using oneMore_ne_zero x.lost⟩

/-- The captures of a transition keep the laws of the ring they meet. -/
theorem State.moveWork_lawful (t : State) (p : PortId) {done : CaptureState × List Event} (h : done.1.Lawful)
    (m : ZoneId × Transition) : (t.moveWork p done m).1.Lawful := by
  rw [State.moveWork]
  split
  · exact h
  · dsimp only
    split
    · exact h
    · rename_i hm
      exact h.meets (t.captureNow_lawful _ hm)

/-- The captures of a step keep the laws of the rings (R46, R49). -/
theorem State.stepWork_lawful {s : State} (hs : RingsLawful s) (c : ChanId) (p : PortId) :
    (s.stepWork c p).1.Lawful := by
  rw [State.stepWork_eq]
  exact List.foldlRecOn _ _ (motive := fun done : CaptureState × List Event => done.1.Lawful) (hs p)
    fun done hd m _ => State.moveWork_lawful _ p hd m

/-- Every move keeps the laws of the capture rings (R65 to R67, R70, R74). -/
theorem ringsLaw : HubLaw RingsLawful where
  channel _ hs := hs
  posted _ hs := hs
  resynced _ hs := by rw [RingsLawful, State.resynced_capture]; exact hs
  zoneStep c hs p := by rw [(State.zoneStep_work _ c).2 p]; exact State.stepWork_lawful hs c p
  zone _ hs := by rw [State.recomputeLink_frame]; exact hs
  capture cause mask hm hs := by
    rw [RingsLawful, State.takeCapture_capture]
    exact forall_get_set (Q := fun _ (x : CaptureState) => x.Lawful)
      (CaptureState.Lawful.meets (hs _) (State.captureNow_lawful _ _ (hm.mask hs))) hs
  ring hm hs := forall_get_set (Q := fun _ (x : CaptureState) => x.Lawful) (hm.lawful (hs _)) hs
  capLevel _ _ hs := hs
  queue _ hs := hs
  claim _ _ hs := by rw [State.claimedDrive_frame]; exact hs
  release hh _ hs := by rw [State.freeClaim_frame hh]; exact hs
  line _ hs := hs
  teardown _ _ hs := by
    rw [RingsLawful, State.tornDown_capture]
    exact forall_get_set (Q := fun _ (x : CaptureState) => x.Lawful) CaptureState.fresh_lawful hs
  ports hp hs := by rw [RingsLawful, hp.capture]; exact hs
  poweredOn s pins _ p := by
    have : (s.poweredOn pins).capture[p] = CaptureState.fresh := by simp [State.poweredOn]
    rw [this]; exact CaptureState.fresh_lawful
  increment _ hs := hs
  resetShared _ hs := hs
  openSession _ _ _ hs := forall_get_set (Q := fun _ (x : CaptureState) => x.Lawful) CaptureState.fresh_lawful hs

/-! ## The event queues -/

/-- The records that a discontinuity posts to a session: ZONE_RESYNC for each zone of its own that changes (R51). -/
def State.resyncRecords (s : State) (c : ChanId) (p : PortId) : List Event :=
  (List.finRange 32).filterMap fun z =>
    ((s.resyncedZone c z).filter fun x => x.owner = p).map fun x => .zoneResync z (s.zoneResynced c x).state

theorem State.resynced_queues (s : State) (c : ChanId) :
    (s.resynced c).queues = (s.posted (s.resyncRecords c)).queues := by
  unfold State.resynced; rfl

/-- The queues of a state and whether the sessions are OPEN are all that their laws speak of. -/
theorem QueuesLawful.congr {s t : State} (h : QueuesLawful s) (hq : t.queues = s.queues)
    (ho : ∀ p : PortId, (t.sessions[p]).isOpen = (s.sessions[p]).isOpen) : QueuesLawful t := by
  intro p; rw [hq, ho]; exact h p

theorem QueuesLawful.posted {s : State} (h : QueuesLawful s) (es : PortId → List Event) :
    QueuesLawful (s.posted es) := by
  refine queuesLawful_iff.mpr fun p => ?_
  have hp : (s.queues[p]).LawfulFor (s.sessions[p]).isOpen := h p
  have hq : (s.posted es).queues[p] = if (s.sessions[p]).isOpen then
      (s.queues[p]).filled ((es p).map fun e => ⟨e, s.timestamp⟩) else s.queues[p] := by simp
  rw [hq, State.posted_sessions]
  split
  · rename_i ho
    rw [ho] at hp ⊢; exact hp.filled _
  · exact hp

theorem QueuesLawful.setQueue {s : State} (h : QueuesLawful s) {p : PortId} {q : EventQueue}
    (hq : q.LawfulFor (s.sessions[p]).isOpen) : QueuesLawful (s.setQueue p q) :=
  forall_get_set (Q := fun p (q : EventQueue) => q.LawfulFor (s.sessions[p]).isOpen) hq h

/-- A teardown keeps the laws of the queues: the departed session's is empty, the others' take CLAIM_FREED. -/
theorem QueuesLawful.tornDown {s : State} (h : QueuesLawful s) (p : PortId) (cause : CloseCause) :
    QueuesLawful (s.tornDown p cause) := by
  refine queuesLawful_iff.mpr fun q => ?_
  rw [State.tornDown_queue, State.tornDown_sessions]
  by_cases he : q = p
  · rw [if_pos he]; exact EventQueue.emptied_lawful _ _
  · have hne : (p : Nat) ≠ q := fun e => he (Fin.ext e.symm)
    have hq : ((s.posted (s.freedBy p)).queues[q]).LawfulFor (s.sessions[q]).isOpen := h.posted (s.freedBy p) q
    rw [if_neg he]
    simpa only [Fin.getElem_fin, Vector.getElem_set, hne, if_false] using hq

/-- A fresh queue is lawful, for it holds nothing. -/
theorem EventQueue.fresh_lawful (isOpen : Bool) : EventQueue.fresh.LawfulFor isOpen := by
  simp [EventQueue.fresh, EventQueue.LawfulFor, attnCondition]

/-- Every move keeps the laws of the event queues (R88, R96, R102). -/
theorem queuesLaw : HubLaw QueuesLawful where
  channel _ hs := hs
  posted es hs := hs.posted es
  resynced c hs := (hs.posted _).congr (State.resynced_queues _ c) fun _ => by rw [State.resynced_sessions]; rfl
  zoneStep c hs := (hs.posted _).congr (State.zoneStep_work _ c).1 fun _ => by rw [State.zoneStep_sessions]; rfl
  zone _ hs := by rw [State.recomputeLink_frame]; exact hs
  capture cause mask hm hs := by
    rw [State.takeCapture_eq]; exact QueuesLawful.posted (s := State.setCapture _ _ _) hs _
  ring _ hs := hs
  capLevel _ _ hs := hs
  queue hm hs := hs.setQueue (hm.lawful (hs _))
  claim _ _ hs := by rw [State.claimedDrive_frame]; exact hs
  release hh _ hs := by
    rw [State.freeClaim_eq _ _ _ hh]; exact (hs.posted _).congr rfl fun _ => rfl
  line _ hs := hs
  teardown cause _ hs := hs.tornDown _ cause
  ports hp hs := hs.congr hp.queues hp.isOpen
  poweredOn s pins _ p := by
    have : (s.poweredOn pins).queues[p] = EventQueue.fresh := by simp [State.poweredOn]
    rw [this]; exact EventQueue.fresh_lawful _
  increment s hs := hs.congr rfl fun p => by simp [State.increment]
  resetShared _ hs := hs
  openSession {s} p n _ hs := by
    refine queuesLawful_iff.mpr fun q => ?_
    by_cases he : q = p
    · subst he; simpa using EventQueue.fresh_lawful _
    · have hne : (p : Nat) ≠ q := fun e => he (Fin.ext e.symm)
      have hq : (s.queues[q]).LawfulFor (s.sessions[q]).isOpen := hs q
      simpa [Vector.getElem_set, hne] using hq

/-! ## What is claimed -/

/-- Settles O2: no command stops the hub, and none speaks of the queue of commands. -/
theorem everyCommandCompletes : Obligations.EveryCommandCompletes := by
  unfold Obligations.EveryCommandCompletes
  intro c s
  obtain ⟨t, ht⟩ : ∃ t, exec c s = .next t := by cases c <;> exact ⟨_, rfl⟩
  exact ⟨t, ht, (pendingLaw s.pending).blocksLaw.exec rfl ht⟩

/-- Settles O5, move by move. -/
theorem stepKeepsChannelsLawful : Obligations.StepKeepsChannelsLawful := by
  unfold Obligations.StepKeepsChannelsLawful
  exact fun s t hs ht => channelsLaw.blocksLaw.step (fun _ _ h => h) hs ht

/-- Settles O9, move by move. -/
theorem stepKeepsRingsLawful : Obligations.StepKeepsRingsLawful := by
  unfold Obligations.StepKeepsRingsLawful
  exact fun s t hs ht => ringsLaw.blocksLaw.step (fun _ _ h => h) hs ht

/-- Settles O8, move by move. -/
theorem stepKeepsQueuesLawful : Obligations.StepKeepsQueuesLawful := by
  unfold Obligations.StepKeepsQueuesLawful
  exact fun s t hs ht => queuesLaw.blocksLaw.step (fun _ _ h => h) hs ht

end Sys2Proof.Machine
end

section
/-! SUPPORT. The laws of ownership and of the output lines, move by move. -/

namespace Sys2Proof.Machine

/-! ## What a teardown and a release leave of the tables -/

theorem State.tornDown_zone (s : State) (p : PortId) (cause : CloseCause) (z : ZoneId) :
    (s.tornDown p cause).zones[z] = (s.zones[z]).filter fun x => x.owner ≠ p := by
  unfold State.tornDown; simp

theorem State.tornDown_claim (s : State) (p : PortId) (cause : CloseCause) (r : ResId) :
    (s.tornDown p cause).claims[r] = if s.holder r = some p then none else s.claims[r] := by
  unfold State.tornDown; simp

theorem State.tornDown_line (s : State) (p : PortId) (cause : CloseCause) (k : LineId) :
    (s.tornDown p cause).lines[k] =
      if s.holder (lineRes k) = some p then OutLine.defaults (s.lines[k]).safe else s.lines[k] := by
  unfold State.tornDown; simp

theorem State.tornDown_isOpen_of_ne (s : State) {p q : PortId} (h : q ≠ p) (cause : CloseCause) :
    ((s.tornDown p cause).sessions[q]).isOpen = (s.sessions[q]).isOpen := by
  have hne : (p : Nat) ≠ q := fun e => h (Fin.ext e.symm)
  rw [State.tornDown_sessions]
  simp [hne]

theorem State.freeClaim_claim {s : State} {p : PortId} {r : ResId} (h : s.holder r = some p) (e : ResId) :
    (s.freeClaim p r).claims[e] = if e = r then none else s.claims[e] := by
  rw [State.freeClaim_eq s p r h]
  by_cases he : e = r
  · subst he; simp [State.freedClaim, h]
  · simp [State.freedClaim, he]

theorem State.freeClaim_line {s : State} {p : PortId} {r : ResId} (h : s.holder r = some p) (k : LineId) :
    (s.freeClaim p r).lines[k] = if lineRes k = r then OutLine.defaults (s.lines[k]).safe else s.lines[k] := by
  rw [State.freeClaim_eq s p r h]
  by_cases he : lineRes k = r
  · simp [State.freedLine, h, he]
  · simp [State.freedLine, he]

/-! ## Ownership (R36, R37, R39, R40, R43, R108) -/

/-- What the laws of one zone read of the other tables. -/
theorem ZoneLawful.congr {s t : State} {z : Zone} (h : ZoneLawful s z)
    (ho : (s.sessions[z.owner]).isOpen = true → (t.sessions[z.owner]).isOpen = true)
    (hm : (s.channels[z.channel]).mode ≠ .off → (t.channels[z.channel]).mode ≠ .off)
    (hM : (t.channels[z.channel]).modulus = (s.channels[z.channel]).modulus)
    (hh : ∀ l ∈ z.link, s.holder (lineRes l.line) = some z.owner → t.holder (lineRes l.line) = some z.owner) :
    ZoneLawful t z := by
  obtain ⟨h1, h2, h3, h4, h5, h6⟩ := h
  exact ⟨ho h1, hm h2, hM ▸ h3, h4, fun l hl => hh l hl (h5 l hl), h6⟩

/-- States with the same zones, channels, claims and OPEN sessions share the laws of ownership. -/
theorem OwnershipLawful.congr {s t : State} (h : OwnershipLawful s) (hz : t.zones = s.zones)
    (hc : t.channels = s.channels) (hcl : t.claims = s.claims)
    (ho : ∀ p : PortId, (t.sessions[p]).isOpen = (s.sessions[p]).isOpen) : OwnershipLawful t := by
  obtain ⟨hzones, hclaims⟩ := h
  refine ⟨fun id z hzz => ?_, fun r x hx => ?_⟩
  · rw [hz] at hzz
    exact (hzones id z hzz).congr (fun e => (ho _).trans e) (fun e => by rw [hc]; exact e) (by rw [hc])
      fun l _ e => by rw [State.holder, hcl]; exact e
  · rw [hcl] at hx; rw [ho]; exact hclaims r x hx

/-- A zone whose state alone is new, and is IDLE exactly when it was, stays lawful. -/
theorem ZoneLawful.restated {s : State} {x : Zone} (h : ZoneLawful s x) {st : ZoneState} {n : Half}
    (hi : st = .idle ↔ x.state = .idle) : ZoneLawful s { x with state := st, entryCount := n } := by
  obtain ⟨h1, h2, h3, h4, h5, h6⟩ := h
  exact ⟨h1, h2, h3, by rw [h4, not_iff_not]; exact hi.symm, h5, h6⟩

theorem Zone.onStep_ne_idle {x : Zone} {M : Nat} {n : Int} {m : Transition} (h : x.onStep M n = some m) :
    x.state ≠ .idle := by
  intro e
  rw [Zone.onStep, e] at h
  cases h

theorem ZoneLawful.moved {s : State} {x : Zone} (h : ZoneLawful s x) (hi : x.state ≠ .idle) (m : Transition) :
    ZoneLawful s (x.moved m) := by
  cases m with
  | entry => exact h.restated (by simp [hi])
  | exit => exact h.restated (by simp [hi])

theorem State.rawState_ne_idle (s : State) (x : Zone) : s.rawState x ≠ .idle := by
  rw [State.rawState]; split <;> simp

theorem ZoneLawful.resynced {s : State} {x : Zone} (h : ZoneLawful s x) (c : ChanId) :
    ZoneLawful s (s.zoneResynced c x) := by
  rw [State.zoneResynced]
  split
  · rename_i hc
    have harm : x.state ≠ .idle := h.2.2.2.1.mp hc.2
    exact h.restated (by simp [harm, s.rawState_ne_idle x])
  · exact h

/-- Zones rewritten one by one within their laws. -/
theorem OwnershipLawful.rezoned {s t : State} (h : OwnershipLawful s) (hc : t.channels = s.channels)
    (hcl : t.claims = s.claims) (hs : t.sessions = s.sessions)
    (hz : ∀ id : ZoneId, ∀ y ∈ t.zones[id], ZoneLawful s y) : OwnershipLawful t := by
  refine ⟨fun id y hy => ?_, fun r x hx => ?_⟩
  · exact (hz id y hy).congr (fun e => by rw [hs]; exact e) (fun e => by rw [hc]; exact e) (by rw [hc])
      fun l _ e => by rw [State.holder, hcl]; exact e
  · rw [hcl] at hx; rw [hs]; exact h.2 r x hx

theorem State.holder_setClaim_self (s : State) (r : ResId) (x : Option Claim) :
    (s.setClaim r x).holder r = x.map (·.holder) := by
  simp [State.holder]

theorem State.holder_setClaim_of_ne (s : State) {r e : ResId} (he : e ≠ r) (x : Option Claim) :
    (s.setClaim r x).holder e = s.holder e := by
  have hne : (r : Nat) ≠ e := fun h => he (Fin.ext h.symm)
  simp [State.holder, hne]

/-- A resource in use is the line of a zone's link. -/
theorem State.releaseInUse_of_link {s : State} {z : ZoneId} {x : Zone} {l : Link} (hz : s.zones[z] = some x)
    (hl : x.link = some l) : s.releaseInUse (lineRes l.line) = true := by
  have hr : resLine (lineRes l.line) = some l.line := (resLine_eq _ _).mpr rfl
  rw [State.releaseInUse, hr]
  simp only [State.zonesLinked, List.any_eq_true]
  exact ⟨some x, by rw [← hz, Vector.mem_toList_iff]; exact Vector.getElem_mem _, by simp [hl]⟩

/-- Every move keeps the laws of ownership. -/
theorem ownershipLaw : HubLaw OwnershipLawful where
  channel {s c x} hm hs := by
    refine ⟨fun id z hz => ?_, hs.2⟩
    have hl := hs.1 id z hz
    by_cases he : z.channel = c
    · subst he
      obtain ⟨hoff, hM⟩ := hm.zones ⟨id, z, hz, rfl⟩
      exact hl.congr (fun e => e) (fun e => by simpa using hoff e) (by simpa using hM) fun _ _ e => e
    · have hne : (c : Nat) ≠ z.channel := fun h => he (Fin.ext h.symm)
      exact hl.congr (fun e => e) (fun e => by simpa [Vector.getElem_set, hne] using e)
        (by simp [hne]) fun _ _ e => e
  posted _ hs := hs.congr rfl rfl rfl fun _ => rfl
  resynced {s} c hs := by
    refine hs.rezoned (by simp) (by simp) (by simp) fun id y hy => ?_
    rw [State.resynced_zone] at hy
    obtain ⟨x, hx, rfl⟩ := Option.map_eq_some_iff.mp hy
    exact (hs.1 id x hx).resynced c
  zoneStep {s} c hs := by
    refine hs.rezoned (by simp) (by simp) (by simp) fun id y hy => ?_
    rw [State.zoneStep_zone, slotMoved] at hy
    split at hy
    · rename_i m hm
      obtain ⟨x, hx, -, hst⟩ := slotMove_eq_some.mp hm
      rw [hx] at hy
      cases hy
      exact (hs.1 id x hx).moved (Zone.onStep_ne_idle hst) m
    · exact hs.1 id y hy
  zone {s z o link} hm hs := by
    rw [State.recomputeLink_frame]
    refine hs.rezoned rfl rfl rfl ?_
    exact forall_get_set (Q := fun _ (o : Option Zone) => ∀ y ∈ o, ZoneLawful s y) (hm.lawful hs) hs.1
  capture _ _ _ hs := by rw [State.takeCapture_frame]; exact hs.congr rfl rfl rfl fun _ => rfl
  ring _ hs := hs.congr rfl rfl rfl fun _ => rfl
  capLevel _ _ hs := hs.congr rfl rfl rfl fun _ => rfl
  queue _ hs := hs.congr rfl rfl rfl fun _ => rfl
  claim {s p r} hfree ho hs := by
    rw [State.claimedDrive_frame]
    refine OwnershipLawful.congr (s := s.setClaim r (some ⟨p, s.timestamp⟩)) ?_ rfl rfl rfl fun _ => rfl
    refine ⟨fun id z hz => ?_, ?_⟩
    · refine (hs.1 id z hz).congr (fun e => e) (fun e => e) rfl fun l _ e => ?_
      have hne : lineRes l.line ≠ r := fun he => by
        rw [he, State.holder, hfree] at e; cases e
      rw [State.holder_setClaim_of_ne s hne]; exact e
    · exact forall_get_set (Q := fun _ (o : Option Claim) => ∀ x ∈ o, (s.sessions[x.holder]).isOpen = true)
        (fun x hx => by cases hx; exact ho) hs.2
  release {s p r} hh hu hs := by
    refine ⟨fun id z hz => ?_, fun e x hx => ?_⟩
    · have hz' : s.zones[id] = some z := by rw [State.freeClaim_frame hh] at hz; exact hz
      refine (hs.1 id z hz').congr (fun e => by rw [State.freeClaim_frame hh]; exact e)
        (fun e => by rw [State.freeClaim_frame hh]; exact e) (by rw [State.freeClaim_frame hh]) fun l hl e => ?_
      have hne : lineRes l.line ≠ r := fun he => by
        have := State.releaseInUse_of_link hz' hl
        rw [he, hu] at this; cases this
      rw [State.holder, State.freeClaim_claim hh, if_neg hne]; exact e
    · rw [State.freeClaim_claim hh] at hx
      rw [State.freeClaim_frame hh]
      split at hx
      · cases hx
      · exact hs.2 e x hx
  line _ hs := hs.congr rfl rfl rfl fun _ => rfl
  teardown {s p} cause _ hs := by
    refine ⟨fun id z hz => ?_, fun r x hx => ?_⟩
    · rw [State.tornDown_zone] at hz
      obtain ⟨hz, hown⟩ := Option.filter_eq_some_iff.mp hz
      have hown : z.owner ≠ p := of_decide_eq_true hown
      refine (hs.1 id z hz).congr (fun e => by rw [State.tornDown_isOpen_of_ne s hown]; exact e)
        (fun e => by rw [State.tornDown_channels]; exact e) (by rw [State.tornDown_channels]) fun l _ e => ?_
      have hne : s.holder (lineRes l.line) ≠ some p := by rw [e]; exact fun h => hown (Option.some.inj h)
      rw [State.holder, State.tornDown_claim, if_neg hne]; exact e
    · rw [State.tornDown_claim] at hx
      split at hx
      · cases hx
      · rename_i hne
        have hxp : x.holder ≠ p := fun e => hne (by rw [State.holder, hx, ← e]; rfl)
        rw [State.tornDown_isOpen_of_ne s hxp]; exact hs.2 r x hx
  ports hp hs := hs.congr hp.zones hp.channels hp.claims hp.isOpen
  poweredOn s pins _ := ⟨fun id z hz => by simp [State.poweredOn] at hz, fun r x hx => by simp [State.poweredOn] at hx⟩
  increment s hs := hs.congr rfl rfl rfl fun p => by simp [State.increment]
  resetShared s _ := ⟨fun id z hz => by simp [State.resetShared] at hz, fun r x hx => by simp [State.resetShared] at hx⟩
  openSession {s} p n hc hs := by
    have ho : ∀ q : PortId, (s.sessions[q]).isOpen = true →
        ((s.setSession p ((s.sessions[p]).opened n)).sessions[q]).isOpen = true := by
      intro q hq
      by_cases he : q = p
      · subst he; simp [Session.opened]
      · have hne : (p : Nat) ≠ q := fun e => he (Fin.ext e.symm)
        simpa [Vector.getElem_set, hne] using hq
    exact ⟨fun id z hz => (hs.1 id z hz).congr (ho _) (fun e => e) rfl fun _ _ e => e, fun r x hx => ho _ (hs.2 r x hx)⟩

end Sys2Proof.Machine
end

section
/-! SUPPORT. The laws of the output lines, move by move, under the laws of ownership. -/

namespace Sys2Proof.Machine

/-! ## The drive of the following zones (R124) -/

/-- A slot holds a zone that shows a line: it follows the line, armed and INSIDE. -/
abbrev slotShows (k : LineId) (o : Option Zone) : Prop := ∃ y ∈ o, y.shows k = true

/-- Slots that show a line alike give it one drive. -/
theorem State.followDrive_congr {s t : State} {k : LineId}
    (h : ∀ z : ZoneId, slotShows k t.zones[z] ↔ slotShows k s.zones[z]) : t.followDrive k = s.followDrive k := by
  have hf : t.Followed k ↔ s.Followed k := by
    simp only [State.Followed, ← Zone.shows_iff]
    exact exists_congr h
  rw [State.followDrive_eq, State.followDrive_eq]
  simp only [hf]

theorem State.followDrive_of_zones {s t : State} (h : t.zones = s.zones) (k : LineId) :
    t.followDrive k = s.followDrive k :=
  State.followDrive_congr fun z => by rw [h]

/-- A zone whose link is another does not show a line. -/
theorem Zone.not_shows {y : Zone} {k : LineId} (h : y.link ≠ some ⟨k, true⟩) : ¬ y.shows k = true :=
  fun hs => h (Zone.shows_iff.mp hs).1

/-! ## One line -/

/-- In a mode other than FOLLOW a line does not look at its following zones. -/
theorem OutLine.LawfulFor.of_mode {l : OutLine} {held : Prop} {d e : Drive} (h : l.LawfulFor held d)
    (hm : held → l.mode = .follow → e = d) : l.LawfulFor held e := by
  obtain ⟨hpin, hfree, hheld⟩ := h
  refine ⟨hpin, hfree, fun hh => ?_⟩
  obtain ⟨hs, hw, hd⟩ := hheld hh
  refine ⟨hs, hw, ?_⟩
  cases hmode : l.mode with
  | follow => rw [hm hh hmode]; exact hd
  | direct => simpa only [OutLine.drivenByMode, hmode] using hd
  | pulse => simpa only [OutLine.drivenByMode, hmode] using hd

/-- A FOLLOW line driven anew shows its following zones. -/
theorem OutLine.LawfulFor.redriven {l : OutLine} {held : Prop} {d e : Drive} (h : l.LawfulFor held d) (hh : held)
    (hm : l.mode = .follow) (he : e ≠ .safe) : (l.driven e).LawfulFor held e := by
  obtain ⟨-, -, hheld⟩ := h
  obtain ⟨-, hw, hd⟩ := hheld hh
  simp only [OutLine.drivenByMode, hm, Bool.and_eq_true] at hd
  exact ⟨rfl, fun hn => absurd hh hn, fun _ => ⟨he, hw, by simp [OutLine.drivenByMode, OutLine.driven, hm, hd.2]⟩⟩

/-- A trigger keeps the laws of a held line. -/
theorem OutLine.LawfulFor.triggered {l : OutLine} {held : Prop} {d : Drive} (h : l.LawfulFor held d) (hh : held) :
    l.triggered.LawfulFor held d := by
  obtain ⟨hpin, hfree, hheld⟩ := h
  obtain ⟨hs, hw, hd⟩ := hheld hh
  cases hm : l.mode with
  | direct => rw [OutLine.triggered_of_direct hm]; exact ⟨hpin, hfree, hheld⟩
  | follow => rw [OutLine.triggered_of_follow hm]; exact ⟨hpin, hfree, hheld⟩
  | pulse =>
    rw [OutLine.triggered_of_pulse hm]
    simp only [OutLine.drivenByMode, hm] at hd
    cases ht : l.timer with
    | none =>
      exact ⟨rfl, fun hn => absurd hh hn, fun _ => ⟨by simp [OutLine.driven], hw, by
        simp [OutLine.drivenByMode, OutLine.driven, hm]⟩⟩
    | some n =>
      rw [ht] at hd
      cases l.retrigger with
      | restart => exact ⟨hpin, fun hn => absurd hh hn, fun _ => ⟨hs, hw, by simpa [OutLine.drivenByMode, hm] using hd⟩⟩
      | ignore => exact ⟨hpin, hfree, fun _ => ⟨hs, hw, by simpa [OutLine.drivenByMode, hm, ht] using hd⟩⟩

theorem OutLine.defaults_lawful (safe : Bool) {held : Prop} (hn : ¬ held) (d : Drive) :
    (OutLine.defaults safe).LawfulFor held d :=
  ⟨rfl, fun _ => rfl, fun hh => absurd hh hn⟩

/-! ## The lines on a step -/

/-- A transition whose zone follows a line. -/
abbrev State.moveFollows (t : State) (k : LineId) (m : ZoneId × Transition) : Prop :=
  ∃ x ∈ t.zones[m.1], x.link = some ⟨k, true⟩

theorem State.lineAct_of_free {t : State} {k : LineId} (h : t.lineHeld k = false) (l : OutLine)
    (m : ZoneId × Transition) : t.lineAct k l m = l := by
  rw [State.lineAct]
  split <;> simp [h]

theorem State.lineAct_of_follow {t : State} {k : LineId} (h : t.lineHeld k = true) {l : OutLine} (hm : l.mode = .follow)
    (m : ZoneId × Transition) [Decidable (t.moveFollows k m)] :
    t.lineAct k l m = if t.moveFollows k m then l.driven (t.followDrive k) else l := by
  rw [State.lineAct]
  split
  · rename_i hf
    rw [if_neg]
    rintro ⟨x, hx, hl⟩
    rw [Option.filter_eq_none_iff] at hf
    exact hf x hx (by simp [hl])
  · rename_i x hf
    obtain ⟨hx, -⟩ := Option.filter_eq_some_iff.mp hf
    have hx' : ∀ y ∈ t.zones[m.1], y = x := fun y hy => by rw [hx] at hy; exact (Option.some.inj hy).symm
    have hiff : t.moveFollows k m ↔ x.link = some ⟨k, true⟩ :=
      ⟨fun ⟨y, hy, hl⟩ => hx' y hy ▸ hl, fun hl => ⟨x, hx, hl⟩⟩
    simp [OutLine.triggered_of_follow hm, h, hm, hiff]

theorem State.lineAct_of_not_follow {t : State} {k : LineId} {l : OutLine} (hm : l.mode ≠ .follow)
    (m : ZoneId × Transition) : t.lineAct k l m = l ∨ t.lineHeld k = true ∧ t.lineAct k l m = l.triggered := by
  rw [State.lineAct]
  split
  · exact .inl rfl
  · dsimp only
    split
    · rename_i ht
      rw [if_neg (by simp [hm])]; exact .inr ⟨ht.2, rfl⟩
    · rw [if_neg (by simp [hm])]; exact .inl rfl

/-- A FOLLOW line after the transitions of a step: driven anew where one of them follows it. -/
theorem State.lineAct_foldl_of_follow {t : State} {k : LineId} (h : t.lineHeld k = true)
    (ms : List (ZoneId × Transition))
    {l : OutLine} (hm : l.mode = .follow) :
    ms.foldl (t.lineAct k) l = l ∧ (∀ m ∈ ms, ¬ t.moveFollows k m) ∨
      ms.foldl (t.lineAct k) l = l.driven (t.followDrive k) := by
  classical
  induction ms generalizing l with
  | nil => exact .inl ⟨rfl, by simp⟩
  | cons m ms ih =>
    rw [List.foldl_cons, State.lineAct_of_follow h hm]
    split
    · rcases ih (l := l.driven (t.followDrive k)) hm with ⟨he, -⟩ | he
      · exact .inr he
      · exact .inr he
    · rename_i hno
      rcases ih hm with ⟨he, hn⟩ | he
      · exact .inl ⟨he, fun x hx => (List.mem_cons.mp hx).elim (fun e => e ▸ hno) (hn x)⟩
      · exact .inr he

/-- Any other line after the transitions of a step keeps its laws. -/
theorem State.lineAct_foldl_of_not_follow {t : State} {k : LineId} (ms : List (ZoneId × Transition)) {l : OutLine}
    (hm : l.mode ≠ .follow) {held : Prop} (hh : t.lineHeld k = true → held) {d : Drive} (hl : l.LawfulFor held d) :
    (ms.foldl (t.lineAct k) l).LawfulFor held d ∧ (ms.foldl (t.lineAct k) l).mode ≠ .follow := by
  refine List.foldlRecOn (motive := fun o : OutLine => o.LawfulFor held d ∧ o.mode ≠ .follow) ms _ ⟨hl, hm⟩
    fun o ⟨ho, hom⟩ m _ => ?_
  rcases State.lineAct_of_not_follow (t := t) (k := k) hom m with he | ⟨hheld, he⟩
  · rw [he]; exact ⟨ho, hom⟩
  · rw [he]; exact ⟨ho.triggered (hh hheld), by rwa [OutLine.triggered_mode]⟩

theorem State.lineHeld_iff {s : State} {k : LineId} : s.lineHeld k = true ↔ s.claims[lineRes k] ≠ none := by
  rw [State.lineHeld, Option.isSome_iff_ne_none]

/-- Where no transition of a step follows a line, the step leaves the drive of its following zones. -/
theorem State.withMoved_followDrive {s : State} {c : ChanId} {k : LineId}
    (h : ∀ m ∈ s.moves c, ¬ (s.withMoved c).moveFollows k m) : (s.withMoved c).followDrive k = s.followDrive k := by
  refine State.followDrive_congr fun z => ?_
  cases hm : slotMove c (s.channels[c]).modulus (s.channels[c]).count s.zones[z] with
  | none => rw [State.withMoved_zone, slotMoved, hm]
  | some m =>
    obtain ⟨x, hx, -, -⟩ := slotMove_eq_some.mp hm
    have hz : (s.withMoved c).zones[z] = some (x.moved m) := by
      rw [State.withMoved_zone, hx, slotMoved_of_move (hx ▸ hm)]
    have hno : x.link ≠ some ⟨k, true⟩ := fun e =>
      h _ (State.mem_moves.mpr hm) ⟨_, hz, by rw [Zone.moved_link]; exact e⟩
    rw [hz, hx]
    exact iff_of_false
      (fun ⟨y, hy, hs⟩ => by cases hy; exact Zone.not_shows (by rwa [Zone.moved_link]) hs)
      (fun ⟨y, hy, hs⟩ => by cases hy; exact Zone.not_shows hno hs)

/-- A step keeps the laws of the lines (R50, R124, R126, R127). -/
theorem LinesLawful.zoneStep {s : State} (h : LinesLawful s) (c : ChanId) : LinesLawful (s.zoneStep c) := by
  refine linesLawful_iff.mpr fun k => ?_
  have hk := linesLawful_iff.mp h k
  have hF : (s.zoneStep c).followDrive k = (s.withMoved c).followDrive k :=
    State.followDrive_of_zones (by rw [congrArg State.zones (s.zoneStep_frame c)]; rfl) k
  rw [State.zoneStep_line, hF, State.zoneStep_claims]
  have hheld : (s.withMoved c).lineHeld k = s.lineHeld k := rfl
  by_cases hm : (s.lines[k]).mode = .follow
  · by_cases hh : s.lineHeld k = true
    · rcases State.lineAct_foldl_of_follow (hheld.trans hh) (s.moves c) hm with ⟨he, hno⟩ | he
      · rw [he, State.withMoved_followDrive hno]; exact hk
      · rw [he]; exact hk.redriven (State.lineHeld_iff.mp hh) hm (State.followDrive_ne_safe _ _)
    · have hfree : (s.withMoved c).lineAct k = fun l _ => l := by
        funext l m; exact State.lineAct_of_free (by rw [hheld]; simpa using hh) l m
      rw [hfree, List.foldl_fixed]
      exact hk.of_mode fun hn => absurd (State.lineHeld_iff.mpr hn) hh
  · obtain ⟨hl, hlm⟩ := State.lineAct_foldl_of_not_follow (t := s.withMoved c) (s.moves c) hm
      (fun e => State.lineHeld_iff.mp (hheld ▸ e)) hk
    exact hl.of_mode fun _ e => absurd e hlm

/-! ## The other moves -/

/-- A line that is redriven where it is held, FOLLOW and asked to be, and stays else, is lawful where the drive of its
following zones stays unless it is asked to be. -/
theorem OutLine.LawfulFor.redriven_if {l : OutLine} {held asked : Prop} {d e : Drive} (h : l.LawfulFor held d)
    (he : e ≠ .safe) (hn : ¬ asked → e = d) [Decidable (held ∧ l.mode = .follow ∧ asked)] :
    (if held ∧ l.mode = .follow ∧ asked then l.driven e else l).LawfulFor held e := by
  split
  · rename_i hc
    obtain ⟨hh, hm, -⟩ := hc
    exact h.redriven hh hm he
  · rename_i hc
    exact h.of_mode fun hh hm => hn fun ha => hc ⟨hh, hm, ha⟩

theorem State.resynced_line (s : State) (c : ChanId) (k : LineId)
    [Decidable (s.claims[lineRes k] ≠ none ∧ (s.lines[k]).mode = .follow ∧
      ∃ z : ZoneId, ∃ x ∈ s.resyncedZone c z, x.link = some ⟨k, true⟩)] :
    (s.resynced c).lines[k] =
      if s.claims[lineRes k] ≠ none ∧ (s.lines[k]).mode = .follow ∧
          ∃ z : ZoneId, ∃ x ∈ s.resyncedZone c z, x.link = some ⟨k, true⟩ then
        (s.lines[k]).driven ((s.resynced c).followDrive k)
      else s.lines[k] := by
  have hF : (s.resynced c).followDrive k =
      ({ s with zones := Vector.ofFn fun z => (s.zones[z]).map (s.zoneResynced c) } : State).followDrive k :=
    State.followDrive_congr fun z => by rw [State.resynced_zone]; simp
  rw [hF]
  unfold State.resynced
  simp only [Fin.getElem_fin, Vector.getElem_ofFn, Fin.eta, State.lineHeld_iff]
  congr 1

/-- A discontinuity keeps the laws of the lines (R51, R52). -/
theorem LinesLawful.resynced {s : State} (h : LinesLawful s) (c : ChanId) : LinesLawful (s.resynced c) := by
  classical
  refine linesLawful_iff.mpr fun k => ?_
  rw [State.resynced_line, State.resynced_claims]
  refine (linesLawful_iff.mp h k).redriven_if (State.followDrive_ne_safe _ _) fun hno => ?_
  refine State.followDrive_congr fun z => ?_
  rw [State.resynced_zone]
  cases hz : s.zones[z] with
  | none => simp
  | some x =>
    by_cases hl : x.link = some ⟨k, true⟩
    · have hst : (s.zoneResynced c x).state = x.state := by
        by_contra hne
        exact hno ⟨z, x, Option.filter_eq_some_iff.mpr ⟨hz, by simpa using hne⟩, hl⟩
      have heq : s.zoneResynced c x = x := by
        rw [State.zoneResynced] at hst ⊢
        split at hst
        · rename_i hc; rw [if_pos hc]; simp only at hst; rw [hst]
        · rename_i hc; rw [if_neg hc]
      simp [heq]
    · exact iff_of_false
        (fun ⟨y, hy, hs⟩ => by
          cases hy
          exact Zone.not_shows (by rw [State.zoneResynced_link]; exact hl) hs)
        (fun ⟨y, hy, hs⟩ => by cases hy; exact Zone.not_shows hl hs)

theorem State.recomputeLink_line (s : State) (link : Option Link) (k : LineId) :
    (s.recomputeLink link).lines[k] =
      if s.claims[lineRes k] ≠ none ∧ (s.lines[k]).mode = .follow ∧ link = some ⟨k, true⟩ then
        (s.lines[k]).driven (s.followDrive k)
      else s.lines[k] := by
  rw [State.recomputeLink_eq]
  simp only [Fin.getElem_fin, Vector.getElem_ofFn, Fin.eta, State.lineHeld_iff]

/-- A slot rewritten, its line driven anew, keeps the laws of the lines. -/
theorem LinesLawful.setZone {s : State} (h : LinesLawful s) {z : ZoneId} {o : Option Zone} {link : Option Link}
    (hm : ZoneMove s z o link) : LinesLawful ((s.setZone z o).recomputeLink link) := by
  refine linesLawful_iff.mpr fun k => ?_
  have hF : ((s.setZone z o).recomputeLink link).followDrive k = (s.setZone z o).followDrive k :=
    State.followDrive_of_zones (by rw [State.recomputeLink_frame]) k
  have hc : ((s.setZone z o).recomputeLink link).claims = s.claims := by rw [State.recomputeLink_frame]; rfl
  rw [State.recomputeLink_line, hF, hc]
  refine (linesLawful_iff.mp h k).redriven_if (State.followDrive_ne_safe _ _) fun hno => ?_
  refine State.followDrive_congr fun z' => ?_
  have hold : ∀ y ∈ s.zones[z], ¬ y.shows k = true := fun y hy => Zone.not_shows (by rwa [hm.old y hy])
  have hnew : ∀ y ∈ o, ¬ y.shows k = true := fun y hy => Zone.not_shows (by rwa [hm.new y hy])
  by_cases he : z' = z
  · subst he
    exact iff_of_false (fun ⟨y, hy, hs⟩ => hnew y (by simpa using hy) hs) (fun ⟨y, hy, hs⟩ => hold y hy hs)
  · have hne : (z : Nat) ≠ z' := fun e => he (Fin.ext e.symm)
    simp [hne]

/-- States with the same lines, claims and zones share the laws of the lines. -/
theorem LinesLawful.congr {s t : State} (h : LinesLawful s) (hl : t.lines = s.lines) (hc : t.claims = s.claims)
    (hz : t.zones = s.zones) : LinesLawful t := by
  refine linesLawful_iff.mpr fun k => ?_
  rw [hl, hc, State.followDrive_of_zones hz]
  exact linesLawful_iff.mp h k

end Sys2Proof.Machine
end

section
/-! SUPPORT. The laws of the claims' moves for the output lines, and the two laws settled. -/

namespace Sys2Proof.Machine

theorem State.claimedDrive_line (s : State) (r : ResId) (k : LineId) :
    (s.claimedDrive r).lines[k] = if lineRes k = r then (s.lines[k]).driven .inactive else s.lines[k] := by
  rw [State.claimedDrive]
  cases h : resLine r with
  | none =>
    have hn : lineRes k ≠ r := fun e => by rw [(resLine_eq r k).mpr e] at h; cases h
    simp [hn]
  | some j =>
    by_cases he : k = j
    · subst he
      simp [(resLine_eq r k).mp h]
    · have hn : lineRes k ≠ r := fun e => he (Option.some.inj (((resLine_eq r k).mpr e).symm.trans h))
      have hne : (j : Nat) ≠ k := fun e => he (Fin.ext e.symm)
      simp [hn, hne]

/-- A line just claimed is INACTIVE in the defaults, as DIRECT drives it (R122). -/
theorem OutLine.claimed_lawful (safe : Bool) (d : Drive) {held : Prop} (hh : held) :
    ((OutLine.defaults safe).driven .inactive).LawfulFor held d := by
  refine ⟨rfl, fun hn => absurd hh hn, fun _ => ⟨by simp [OutLine.driven], ?_, rfl⟩⟩
  simp [OutLine.driven, OutLine.defaults, Config.defaultWidth]

/-- A timer that has one increment less to go runs as it did. -/
theorem OutLine.LawfulFor.ticked {l : OutLine} {held : Prop} {d : Drive} (h : l.LawfulFor held d) :
    ({ l with timer := tickTimer l.timer } : OutLine).LawfulFor held d := by
  obtain ⟨hpin, hfree, hheld⟩ := h
  refine ⟨hpin, fun hn => ?_, fun hh => ?_⟩
  · dsimp only
    rw [hfree hn]; rfl
  · obtain ⟨hs, hw, hd⟩ := hheld hh
    refine ⟨hs, hw, ?_⟩
    have ht : (tickTimer l.timer).isSome = l.timer.isSome := Option.isSome_map
    have hn : (tickTimer l.timer).isNone = l.timer.isNone := Option.isNone_map
    simp only [OutLine.drivenByMode, ht, hn]
    exact hd

/-- A free line is a lawful one at its defaults. -/
theorem linesLawful_of_free {s : State} (hc : ∀ r : ResId, s.claims[r] = none)
    (hl : ∀ k : LineId, ∃ safe, s.lines[k] = OutLine.defaults safe) : LinesLawful s := by
  refine linesLawful_iff.mpr fun k => ?_
  obtain ⟨safe, h⟩ := hl k
  rw [h]; exact OutLine.defaults_lawful safe (fun hn => hn (hc _)) _

theorem LinesLawful.claim {s : State} (h : LinesLawful s) {p : PortId} {r : ResId} (hfree : s.claims[r] = none) :
    LinesLawful ((s.setClaim r (some ⟨p, s.timestamp⟩)).claimedDrive r) := by
  refine linesLawful_iff.mpr fun k => ?_
  have hk := linesLawful_iff.mp h k
  rw [State.claimedDrive_line]
  have hF : ((s.setClaim r (some ⟨p, s.timestamp⟩)).claimedDrive r).followDrive k = s.followDrive k :=
    State.followDrive_of_zones (by rw [State.claimedDrive_frame]; rfl) k
  have hc : ((s.setClaim r (some ⟨p, s.timestamp⟩)).claimedDrive r).claims =
      s.claims.set r (some ⟨p, s.timestamp⟩) := by rw [State.claimedDrive_frame]; rfl
  rw [hF, hc]
  by_cases he : lineRes k = r
  · subst he
    have hd : s.lines[k] = OutLine.defaults (s.lines[k]).safe := hk.2.1 (fun hn => hn hfree)
    rw [if_pos rfl, State.setClaim_lines, hd]
    exact OutLine.claimed_lawful _ _ (by simp)
  · have hne : (r : Nat) ≠ lineRes k := fun e => he (Fin.ext e.symm)
    rw [if_neg he]
    simpa only [Fin.getElem_fin, Vector.getElem_set, hne, if_false, State.setClaim_lines] using hk

theorem LinesLawful.freeClaim {s : State} (h : LinesLawful s) {p : PortId} {r : ResId} (hh : s.holder r = some p) :
    LinesLawful (s.freeClaim p r) := by
  refine linesLawful_iff.mpr fun k => ?_
  rw [State.freeClaim_line hh, State.freeClaim_claim hh,
    State.followDrive_of_zones (t := s.freeClaim p r) (s := s) (by rw [State.freeClaim_frame hh])]
  by_cases he : lineRes k = r
  · rw [if_pos he, if_pos he]; exact OutLine.defaults_lawful _ (fun hn => hn rfl) _
  · rw [if_neg he, if_neg he]; exact linesLawful_iff.mp h k

/-- A departing session takes no zone from a line that another holds, for zones link to lines of their owner (R39). -/
theorem State.tornDown_followDrive {s : State} (ho : OwnershipLawful s) {p : PortId} (cause : CloseCause) {k : LineId}
    (hk : s.holder (lineRes k) ≠ some p) : (s.tornDown p cause).followDrive k = s.followDrive k := by
  refine State.followDrive_congr fun z => ?_
  rw [State.tornDown_zone]
  constructor
  · rintro ⟨y, hy, hs⟩; exact ⟨y, (Option.filter_eq_some_iff.mp hy).1, hs⟩
  · rintro ⟨y, hy, hs⟩
    obtain ⟨-, -, -, -, hlink, -⟩ := ho.1 z y hy
    have hown : y.owner ≠ p := fun e => hk (by rw [← e]; exact hlink _ (Zone.shows_iff.mp hs).1)
    exact ⟨y, Option.filter_eq_some_iff.mpr ⟨hy, decide_eq_true hown⟩, hs⟩

theorem LinesLawful.tornDown {s : State} (h : LinesLawful s) (ho : OwnershipLawful s) (p : PortId)
    (cause : CloseCause) :
    LinesLawful (s.tornDown p cause) := by
  refine linesLawful_iff.mpr fun k => ?_
  rw [State.tornDown_line, State.tornDown_claim]
  by_cases hp : s.holder (lineRes k) = some p
  · rw [if_pos hp, if_pos hp]; exact OutLine.defaults_lawful _ (fun hn => hn rfl) _
  · rw [if_neg hp, if_neg hp, State.tornDown_followDrive ho cause hp]; exact linesLawful_iff.mp h k

/-- Every move keeps the laws of the lines under the laws of ownership. -/
theorem linesLaw : HubLaw fun s => OwnershipLawful s ∧ LinesLawful s where
  channel hm hs := ⟨ownershipLaw.channel hm hs.1, hs.2.congr rfl rfl rfl⟩
  posted es hs := ⟨ownershipLaw.posted es hs.1, hs.2.congr rfl rfl rfl⟩
  resynced c hs := ⟨ownershipLaw.resynced c hs.1, hs.2.resynced c⟩
  zoneStep c hs := ⟨ownershipLaw.zoneStep c hs.1, hs.2.zoneStep c⟩
  zone hm hs := ⟨ownershipLaw.zone hm hs.1, hs.2.setZone hm⟩
  capture cause mask hm hs :=
    ⟨ownershipLaw.capture cause hm hs.1, by rw [State.takeCapture_frame]; exact hs.2.congr rfl rfl rfl⟩
  ring hm hs := ⟨ownershipLaw.ring hm hs.1, hs.2.congr rfl rfl rfl⟩
  capLevel n x hs := ⟨ownershipLaw.capLevel n x hs.1, hs.2.congr rfl rfl rfl⟩
  queue hm hs := ⟨ownershipLaw.queue hm hs.1, hs.2.congr rfl rfl rfl⟩
  claim hfree ho hs := ⟨ownershipLaw.claim hfree ho hs.1, hs.2.claim hfree⟩
  release hh hu hs := ⟨ownershipLaw.release hh hu hs.1, hs.2.freeClaim hh⟩
  line {s k l} hm hs :=
    ⟨ownershipLaw.line hm hs.1, linesLawful_iff.mpr
      (forall_get_set (Q := fun j (l : OutLine) => l.LawfulFor (s.claims[lineRes j] ≠ none) (s.followDrive j))
        (hm (linesLawful_iff.mp hs.2 k)) (linesLawful_iff.mp hs.2))⟩
  teardown cause ho hs := ⟨ownershipLaw.teardown cause ho hs.1, hs.2.tornDown hs.1 _ cause⟩
  ports hp hs := ⟨ownershipLaw.ports hp hs.1, hs.2.congr hp.lines hp.claims hp.zones⟩
  poweredOn s pins hs := ⟨ownershipLaw.poweredOn s pins hs.1,
    linesLawful_of_free (fun r => by simp [State.poweredOn]) fun k => ⟨pins.safe.getLsbD k, by simp [State.poweredOn]⟩⟩
  increment s hs := ⟨ownershipLaw.increment s hs.1, linesLawful_iff.mpr fun k => by
    have hl : s.increment.lines[k] = { s.lines[k] with timer := tickTimer (s.lines[k]).timer } := by
      simp [State.increment]
    rw [hl]; exact (linesLawful_iff.mp hs.2 k).ticked⟩
  resetShared s hs := ⟨ownershipLaw.resetShared s hs.1,
    linesLawful_of_free (fun r => by simp [State.resetShared])
      fun k => ⟨(s.lines[k]).safe, by simp [State.resetShared]⟩⟩
  openSession p n hc hs := ⟨ownershipLaw.openSession p n hc hs.1, hs.2.congr rfl rfl rfl⟩

/-- Settles O6, move by move. -/
theorem stepKeepsOwnership : Obligations.StepKeepsOwnership := by
  unfold Obligations.StepKeepsOwnership
  exact fun s t hs ht => ownershipLaw.blocksLaw.step (fun _ _ h => h) hs ht

/-- Settles O7, move by move, together with the laws of ownership. -/
theorem stepKeepsLinesDrivenByMode : Obligations.StepKeepsLinesDrivenByMode := by
  unfold Obligations.StepKeepsLinesDrivenByMode
  exact fun s t ho hl ht => (linesLaw.blocksLaw.step (fun _ _ h => h) ⟨ho, hl⟩ ht).2

end Sys2Proof.Machine
end

section
/-! SUPPORT. The laws of one master's session and port, as laws of its four records, and what each change of the records
keeps. In the middle of a happening an AWAIT may wait over records that the end of the happening will answer it with, so
the condition under which it waits is a parameter of the laws. -/

namespace Sys2Proof.Machine

/-- The laws of a master's session, port, queue and capture state (R138, R143, R155, R161, R164, R165); an AWAIT waits
only under the condition given. -/
structure MasterLawful (x : Session) (y : Port) (q : EventQueue) (c : CaptureState) (waits : Prop) : Prop where
  closed : x.isOpen = false →
    q.records = [] ∧ q.overflow = 0 ∧ c = CaptureState.fresh ∧ y.cache = none ∧ y.awaiting = none ∧
      x.timer = .notRunning
  silence : x.silenceLawful y.awaiting.isSome = true
  waits : y.awaiting.isSome = true → waits
  room : y.waiting.length ≤ if y.awaiting.isSome then 3 else 4
  order : y.sending = none → y.waiting = []
  receiver : y.receiver.lawful = true
  gap : y.gapTimer.isSome = true ↔ y.receiver ≠ .hunt
  gapBound : ∀ n ∈ y.gapTimer, n ≤ Config.frameGap
  reset : y.lrst = true → x.isOpen = false ∧ y.receiver = .hunt ∧ y.waiting = []

/-- The laws of a port are those of its master's records, an AWAIT waiting only over an empty queue (R95, R168). -/
theorem portLawful_iff {s : State} {p : PortId} :
    PortLawful s p ↔
      MasterLawful s.sessions[p] s.ports[p] s.queues[p] s.capture[p] ((s.queues[p]).records = []) :=
  ⟨fun ⟨h1, h2, h3, h4, h5, h6, h7, h8, h9⟩ => ⟨h1, h2, h3, h4, h5, h6, h7, h8, h9⟩,
    fun h => ⟨h.closed, h.silence, h.waits, h.room, h.order, h.receiver, h.gap, h.gapBound, h.reset⟩⟩

/-- A response may join the transmit list: LRST_n is released, and one more fits (R165). -/
structure Port.HasRoom (y : Port) : Prop where
  released : y.lrst = false
  room : y.waiting.length < if y.awaiting.isSome then 3 else 4

namespace MasterLawful
variable {x : Session} {y : Port} {q : EventQueue} {c : CaptureState} {w : Prop}

theorem mono (h : MasterLawful x y q c w) {w' : Prop} (hw : y.awaiting.isSome = true → w → w') :
    MasterLawful x y q c w' :=
  ⟨h.closed, h.silence, fun ha => hw ha (h.waits ha), h.room, h.order, h.receiver, h.gap, h.gapBound, h.reset⟩

/-- An AWAIT waits in an OPEN session alone (R138). -/
theorem open_of_awaiting (h : MasterLawful x y q c w) (ha : y.awaiting.isSome = true) : x.isOpen = true := by
  by_contra hc
  obtain ⟨-, -, -, -, hn, -⟩ := h.closed (by simpa using hc)
  rw [hn] at ha; cases ha

/-- A port whose session is OPEN has LRST_n released (R155). -/
theorem released_of_open (h : MasterLawful x y q c w) (ho : x.isOpen = true) : y.lrst = false := by
  by_contra hl
  obtain ⟨hc, -⟩ := h.reset (by simpa using hl)
  rw [ho] at hc; cases hc

/-- New queue and capture state of an OPEN session, or empty ones. -/
theorem tables (h : MasterLawful x y q c w) {q' : EventQueue} {c' : CaptureState}
    (hc : x.isOpen = false → q'.records = [] ∧ q'.overflow = 0 ∧ c' = CaptureState.fresh) :
    MasterLawful x y q' c' w := by
  refine ⟨fun ho => ?_, h.silence, h.waits, h.room, h.order, h.receiver, h.gap, h.gapBound, h.reset⟩
  obtain ⟨h1, h2, h3⟩ := hc ho
  obtain ⟨-, -, -, h4, h5, h6⟩ := h.closed ho
  exact ⟨h1, h2, h3, h4, h5, h6⟩

/-- The receiver and the gap timer set together, on a port with LRST_n released. -/
theorem setReceiver (h : MasterLawful x y q c w) (hl : y.lrst = false) {r : Receiver} {g : Option Nat}
    (hr : r.lawful = true) (hg : g.isSome = true ↔ r ≠ .hunt) (hb : ∀ n ∈ g, n ≤ Config.frameGap) :
    MasterLawful x { y with receiver := r, gapTimer := g } q c w :=
  ⟨h.closed, h.silence, h.waits, h.room, h.order, hr, hg, hb,
    fun e => absurd (show y.lrst = true from e) (by simp [hl])⟩

/-- The error counts are under no law. -/
theorem setCounts (h : MasterLawful x y q c w) (e f o : Half) :
    MasterLawful x { y with crcErrors := e, framingErrors := f, overruns := o } q c w :=
  ⟨h.closed, h.silence, h.waits, h.room, h.order, h.receiver, h.gap, h.gapBound, h.reset⟩

/-- A cache filled while the session is OPEN, or emptied. -/
theorem setCache (h : MasterLawful x y q c w) {k : Option Response} (hk : x.isOpen = false → k = none) :
    MasterLawful x { y with cache := k } q c w := by
  refine ⟨fun ho => ?_, h.silence, h.waits, h.room, h.order, h.receiver, h.gap, h.gapBound, h.reset⟩
  obtain ⟨h1, h2, h3, -, h5, h6⟩ := h.closed ho
  exact ⟨h1, h2, h3, hk ho, h5, h6⟩

/-- A response joins the transmit list (R164). -/
theorem sent (h : MasterLawful x y q c w) (hy : y.HasRoom) (r : Response) : MasterLawful x (y.send r) q c w := by
  obtain ⟨hl, hroom⟩ := hy
  rw [Port.send]
  split
  · rename_i hs
    exact ⟨h.closed, h.silence, h.waits, h.room, fun _ => hs.2, h.receiver, h.gap, h.gapBound, h.reset⟩
  · rename_i hs
    refine ⟨h.closed, h.silence, h.waits, ?_, fun e => ?_, h.receiver, h.gap, h.gapBound, fun e => ?_⟩
    · simp only [List.length_append, List.length_singleton]; omega
    · exact absurd ⟨e, h.order e⟩ hs
    · rw [show y.lrst = true from e] at hl; cases hl

/-- A response sent, and cached while the session is OPEN (R173). -/
theorem answered (h : MasterLawful x y q c w) (hy : y.HasRoom) (r : Response) :
    MasterLawful x { y.send r with cache := if x.isOpen then some r else y.cache } q c w := by
  refine (h.sent hy r).setCache fun ho => ?_
  rw [if_neg (by simp [ho])]
  exact (h.closed ho).2.2.2.1

/-- A RUNNING silence timer started again (R143). -/
theorem restarted (h : MasterLawful x y q c w) : MasterLawful x.restarted y q c w := by
  have ht : x.restarted.timer = .notRunning ↔ x.timer = .notRunning := by
    rw [Session.restarted]; split <;> simp_all
  refine ⟨fun ho => ?_, ?_, h.waits, h.room, h.order, h.receiver, h.gap, h.gapBound, fun e => ?_⟩
  · rw [Session.restarted_isOpen] at ho; rw [ht]; exact h.closed ho
  · have hs := h.silence
    rw [Session.restarted]
    split
    · rename_i n hn
      simp only [Session.silenceLawful, hn, Bool.and_eq_true, decide_eq_true_eq] at hs
      simp only [Session.silenceLawful, Bool.and_eq_true, decide_eq_true_eq]
      exact ⟨hs.1, le_refl _⟩
    · exact hs
    · exact hs
  · rw [Session.restarted_isOpen]; exact h.reset e

/-- An AWAIT stopped, the silence timer of its OPEN session started again (R144, R167). -/
theorem stopped (h : MasterLawful x y q c w) (ho : x.isOpen = true) (w' : Prop) :
    MasterLawful { x with timer := .running x.fullTime } { y with awaiting := none } q c w' := by
  refine ⟨fun e => absurd (show x.isOpen = false from e) (by simp [ho]), ?_, fun e => (nomatch e), ?_, h.order,
    h.receiver, h.gap, h.gapBound, h.reset⟩
  · simp [Session.silenceLawful, ho, Session.fullTime]
  · have := h.room
    simp only [Option.isSome_none, Bool.false_eq_true, if_false]
    split at this <;> omega

/-- A port whose AWAIT has been stopped has room for its answer. -/
theorem hasRoom_stopped (h : MasterLawful x y q c w) (ha : y.awaiting.isSome = true) :
    ({ y with awaiting := none } : Port).HasRoom := by
  refine ⟨h.released_of_open (h.open_of_awaiting ha), ?_⟩
  have := h.room
  rw [if_pos ha] at this
  simp only [Option.isSome_none, Bool.false_eq_true, if_false]; omega

/-- An AWAIT begins to wait, the silence timer SUSPENDED (R168). -/
theorem awaits (h : MasterLawful x y q c w) (ho : x.isOpen = true) (hroom : y.waiting.length ≤ 3) (a : Awaiting)
    {w' : Prop} (hw : w') :
    MasterLawful { x with timer := .suspended } { y with awaiting := some a } q c w' := by
  refine ⟨fun e => absurd (show x.isOpen = false from e) (by simp [ho]), ?_, fun _ => hw, by simpa using hroom, h.order,
    h.receiver, h.gap, h.gapBound, h.reset⟩
  simp [Session.silenceLawful, ho]

/-- A session with no AWAIT in flight torn down (R148). -/
theorem closes (h : MasterLawful x y q c w) (ha : y.awaiting = none) (cause : CloseCause) {q' : EventQueue}
    (hq : q'.records = [] ∧ q'.overflow = 0) :
    MasterLawful { x with isOpen := false, timer := .notRunning, cause := cause } { y with cache := none } q'
      CaptureState.fresh w := by
  refine ⟨fun _ => ⟨hq.1, hq.2, rfl, rfl, ha, rfl⟩, ?_, h.waits, h.room, h.order, h.receiver, h.gap, h.gapBound,
    fun e => ⟨rfl, (h.reset e).2⟩⟩
  simp [Session.silenceLawful]

/-- A session opened (R142). -/
theorem opens (h : MasterLawful x y q c w) (ho : x.isOpen = false) (hl : y.lrst = false) (n : Byte) (q' : EventQueue)
    (c' : CaptureState) : MasterLawful (x.opened n) y q' c' w := by
  obtain ⟨-, -, -, -, ha, -⟩ := h.closed ho
  refine ⟨fun e => (nomatch e), ?_, h.waits, h.room, h.order, h.receiver, h.gap, h.gapBound,
    fun e => absurd (show y.lrst = true from e) (by simp [hl])⟩
  simp [Session.silenceLawful, Session.opened, Session.fullTime, ha]

/-- A port reset by LRST_n, its session CLOSED and empty (R154, R157); whatever the port was. -/
theorem of_lineReset (ho : x.isOpen = false) (ht : x.timer = .notRunning)
    (hq : q.records = [] ∧ q.overflow = 0 ∧ c = CaptureState.fresh) : MasterLawful x y.lineReset q c w := by
  obtain ⟨h1, h2, h3⟩ := hq
  refine ⟨fun _ => ⟨h1, h2, h3, rfl, rfl, ht⟩, ?_, fun e => (nomatch e), ?_, fun _ => rfl, rfl, ?_, ?_,
    fun _ => ⟨ho, rfl, rfl⟩⟩
  · simp [Session.silenceLawful, ht, ho]
  · simp [Port.lineReset]
  · simp [Port.lineReset]
  · simp [Port.lineReset]

theorem lineReset (h : MasterLawful x y q c w) (ho : x.isOpen = false) : MasterLawful x y.lineReset q c w := by
  obtain ⟨h1, h2, h3, -, -, h6⟩ := h.closed ho
  exact of_lineReset ho h6 ⟨h1, h2, h3⟩

/-- LRST_n released (R155). -/
theorem lineReleased (h : MasterLawful x y q c w) : MasterLawful x { y with lrst := false } q c w :=
  ⟨h.closed, h.silence, h.waits, h.room, h.order, h.receiver, h.gap, h.gapBound, fun e => (nomatch e)⟩

/-- A response sent whole, the next begun (R164). -/
theorem sentWhole (h : MasterLawful x y q c w) : MasterLawful x y.sentWhole q c w := by
  rw [Port.sentWhole]
  split
  · refine ⟨h.closed, h.silence, h.waits, ?_, fun e => ?_, h.receiver, h.gap, h.gapBound, fun e => ?_⟩
    · have := h.room
      simp only [List.length_tail]; omega
    · simp only [List.head?_eq_none_iff] at e
      simp [e]
    · obtain ⟨h1, h2, h3⟩ := h.reset e
      exact ⟨h1, h2, by simp [h3]⟩
  · exact h

/-- One increment of the time base (R35, R143). -/
theorem ticked (h : MasterLawful x y q c w) : MasterLawful { x with timer := x.timer.tick } y.tick q c w := by
  have ha : y.tick.awaiting.isSome = y.awaiting.isSome := Option.isSome_map
  refine ⟨fun ho => ?_, ?_, fun e => h.waits (ha ▸ e), by rw [ha]; exact h.room, h.order, h.receiver, ?_,
    fun n hn => ?_, h.reset⟩
  · obtain ⟨h1, h2, h3, h4, h5, h6⟩ := h.closed ho
    exact ⟨h1, h2, h3, h4, by simp [Port.tick, h5], by simp [h6, SilenceTimer.tick]⟩
  · have hs := h.silence
    rw [ha]
    cases ht : x.timer with
    | notRunning => simpa [Session.silenceLawful, SilenceTimer.tick, ht] using hs
    | suspended => simpa [Session.silenceLawful, SilenceTimer.tick, ht] using hs
    | running n =>
      simp only [Session.silenceLawful, ht, Bool.and_eq_true, decide_eq_true_eq] at hs
      have hfull : ({ x with timer := .running (n - 1) } : Session).fullTime = x.fullTime := rfl
      simp only [Session.silenceLawful, SilenceTimer.tick, hfull, Bool.and_eq_true, decide_eq_true_eq]
      exact ⟨hs.1, le_trans (Nat.sub_le _ _) hs.2⟩
  · have hg : y.tick.gapTimer.isSome = y.gapTimer.isSome := Option.isSome_map
    rw [hg]; exact h.gap
  · obtain ⟨m, hm, rfl⟩ := Option.map_eq_some_iff.mp (show y.gapTimer.map (· - 1) = some n from hn)
    have := h.gapBound m hm
    omega

/-- A master right after power-on (R136, R157). -/
theorem atReset (lrst : Bool) (w : Prop) :
    MasterLawful Session.atReset (Port.atReset lrst) EventQueue.fresh CaptureState.fresh w := by
  constructor <;> simp [Session.atReset, Port.atReset, EventQueue.fresh, Session.silenceLawful, Receiver.lawful]

end MasterLawful

end Sys2Proof.Machine
end

section
/-! SUPPORT. The laws of all masters in the middle of a happening, and what the requests of a port keep of them. -/

namespace Sys2Proof.Machine

theorem get_set_self {α : Type} {n : Nat} (v : Vector α n) (i : Fin n) (x : α) : (v.set i x)[i] = x := by simp

theorem get_set_of_ne {α : Type} {n : Nat} (v : Vector α n) {i j : Fin n} (h : j ≠ i) (x : α) :
    (v.set i x)[j] = v[j] := by
  have hne : (i : Nat) ≠ j := fun e => h (Fin.ext e.symm)
  simp [hne]

theorem State.send_port (s : State) (p : PortId) (r : Response) : (s.send p r).ports[p] = (s.ports[p]).send r := by
  rw [State.send, State.setPort_ports, get_set_self]

theorem State.stopAwait_port (s : State) (p : PortId) :
    (s.stopAwait p).ports[p] = { s.ports[p] with awaiting := none } := by
  rw [State.stopAwait, State.setSession_ports, State.setPort_ports, get_set_self]

@[simp] theorem Port.send_awaiting (y : Port) (r : Response) : (y.send r).awaiting = y.awaiting := by
  rw [Port.send]; split <;> rfl
@[simp] theorem Port.send_lrst (y : Port) (r : Response) : (y.send r).lrst = y.lrst := by
  rw [Port.send]; split <;> rfl

/-- Every master's records are lawful, an AWAIT of each waiting only under its condition. -/
def MastersLawful (w : PortId → Prop) (t : State) : Prop :=
  ∀ q : PortId, MasterLawful t.sessions[q] t.ports[q] t.queues[q] t.capture[q] (w q)

theorem portsLawful_iff {s : State} : PortsLawful s ↔ MastersLawful (fun q => (s.queues[q]).records = []) s :=
  forall_congr' fun _ => portLawful_iff

/-- The queue and the capture state of a session hold nothing. -/
abbrev EmptyTables (t : State) (q : PortId) : Prop :=
  (t.queues[q]).records = [] ∧ (t.queues[q]).overflow = 0 ∧ t.capture[q] = CaptureState.fresh

namespace MastersLawful
variable {w w' : PortId → Prop} {t u : State} {p : PortId}

theorem mono (h : MastersLawful w t) (hw : ∀ q : PortId, (t.ports[q]).awaiting.isSome = true → w q → w' q) :
    MastersLawful w' t :=
  fun q => (h q).mono (hw q)

/-- One master's records rewritten. -/
theorem update (h : MastersLawful w t) (hp : MasterLawful u.sessions[p] u.ports[p] u.queues[p] u.capture[p] (w p))
    (hs : ∀ q : PortId, q ≠ p → u.sessions[q] = t.sessions[q]) (hpo : ∀ q : PortId, q ≠ p → u.ports[q] = t.ports[q])
    (hq : ∀ q : PortId, q ≠ p → (t.sessions[q]).isOpen = true ∨ u.queues[q] = t.queues[q])
    (hc : ∀ q : PortId, q ≠ p → u.capture[q] = t.capture[q]) : MastersLawful w u := by
  intro q
  by_cases he : q = p
  · rw [he]; exact hp
  · rw [hs q he, hpo q he, hc q he]
    refine (h q).tables fun ho => ?_
    rcases hq q he with hopen | heq
    · rw [hopen] at ho; cases ho
    · obtain ⟨h1, h2, h3, -⟩ := (h q).closed ho
      rw [heq]; exact ⟨h1, h2, h3⟩

theorem setPort (h : MastersLawful w t) {y : Port}
    (hy : MasterLawful t.sessions[p] y t.queues[p] t.capture[p] (w p)) : MastersLawful w (t.setPort p y) :=
  h.update (p := p) (by rw [State.setPort_ports, get_set_self]; exact hy) (fun _ _ => rfl)
    (fun _ hne => get_set_of_ne _ hne _) (fun _ _ => .inr rfl) fun _ _ => rfl

theorem setBoth (h : MastersLawful w t) {x : Session} {y : Port}
    (hy : MasterLawful x y t.queues[p] t.capture[p] (w p)) : MastersLawful w ((t.setPort p y).setSession p x) :=
  h.update (p := p)
    (by rw [State.setSession_sessions, State.setSession_ports, State.setPort_ports, get_set_self, get_set_self]
        exact hy)
    (fun _ hne => get_set_of_ne _ hne _) (fun _ hne => get_set_of_ne _ hne _) (fun _ _ => .inr rfl) fun _ _ => rfl

theorem send (h : MastersLawful w t) (hr : (t.ports[p]).HasRoom) (r : Response) : MastersLawful w (t.send p r) :=
  h.setPort ((h p).sent hr r)

theorem answer (h : MastersLawful w t) (hr : (t.ports[p]).HasRoom) (tag : Byte) (k : Half) (st : Status)
    (rs : Results) : MastersLawful w (t.answer p tag k st rs) :=
  h.update (p := p)
    (by
      rw [State.answer_ports, get_set_self, State.answer_sessions, State.answer_queues, State.answer_capture]
      exact (h p).answered hr _)
    (fun _ _ => by rw [State.answer_sessions]) (fun _ hne => by rw [State.answer_ports]; exact get_set_of_ne _ hne _)
    (fun _ _ => .inr (by rw [State.answer_queues])) fun _ _ => by rw [State.answer_capture]

theorem frameAccepted (h : MastersLawful w t) (hl : (t.ports[p]).lrst = false) :
    MastersLawful w (t.frameAccepted p) :=
  h.setBoth (((h p).setReceiver hl (r := .hunt) (g := none) rfl (by simp) (by simp)).restarted)

theorem stopAwait (h : MastersLawful w t) (ho : (t.sessions[p]).isOpen = true) : MastersLawful w (t.stopAwait p) :=
  h.setBoth ((h p).stopped ho _)

/-- The end of an AWAIT in flight. -/
theorem endAwait (h : MastersLawful w t) (st : Status) (rs : Results) : MastersLawful w (t.endAwait p st rs) := by
  rw [State.endAwait]
  split
  · rename_i a ha
    have hsome : (t.ports[p]).awaiting.isSome = true := by rw [ha]; rfl
    refine (h.stopAwait ((h p).open_of_awaiting hsome)).answer ?_ _ _ _ _
    rw [State.stopAwait_port]
    exact (h p).hasRoom_stopped hsome
  · exact h

/-- The end of the AWAIT of a port at a HUB_RESET (R149, R151). -/
theorem endAwaitByReset (h : MastersLawful w t) : MastersLawful w (t.endAwaitByReset p) := by
  rw [State.endAwaitByReset]
  split
  · exact h
  · rename_i a ha
    have hsome : (t.ports[p]).awaiting.isSome = true := by rw [ha]; rfl
    split
    · refine (h.stopAwait ((h p).open_of_awaiting hsome)).send ?_ _
      rw [State.stopAwait_port]
      exact (h p).hasRoom_stopped hsome
    · exact h.endAwait _ _

/-- A session with no AWAIT in flight torn down (R148). -/
theorem tornDown (h : MastersLawful w t) (ha : (t.ports[p]).awaiting = none) (cause : CloseCause) :
    MastersLawful w (t.tornDown p cause) := by
  refine h.update (p := p) ?_ (fun q hne => ?_) (fun q hne => ?_) (fun q hne => ?_) fun q hne => ?_
  · rw [State.tornDown_sessions, State.tornDown_ports, State.tornDown_capture, State.tornDown_queue, if_pos rfl,
      get_set_self, get_set_self, get_set_self]
    exact (h p).closes ha cause ⟨rfl, rfl⟩
  · rw [State.tornDown_sessions]; exact get_set_of_ne _ hne _
  · rw [State.tornDown_ports]; exact get_set_of_ne _ hne _
  · rw [State.tornDown_queue, if_neg hne]
    by_cases ho : (t.sessions[q]).isOpen = true
    · exact .inl ho
    · simp only [Fin.getElem_fin] at ho
      simp [ho]
  · rw [State.tornDown_capture]; exact get_set_of_ne _ hne _

end MastersLawful

theorem State.endAwait_awaiting (s : State) (p : PortId) (st : Status) (rs : Results) :
    ((s.endAwait p st rs).ports[p]).awaiting = none := by
  rw [State.endAwait]
  split
  · rw [State.answer_ports, get_set_self]
    dsimp only
    rw [Port.send_awaiting, State.stopAwait_port]
  · assumption

theorem State.endAwaitByReset_awaiting (s : State) (p : PortId) :
    ((s.endAwaitByReset p).ports[p]).awaiting = none := by
  rw [State.endAwaitByReset]
  split
  · assumption
  · split
    · rw [State.send_port, Port.send_awaiting, State.stopAwait_port]
    · exact State.endAwait_awaiting s p _ _

/-! ## What the moves of the tables leave of the masters -/

/-- The masters' sessions and ports stay, and what a CLOSED session holds stays empty (R138). -/
structure TablesOnly (v t : State) : Prop where
  ports : t.ports = v.ports
  sessions : t.sessions = v.sessions
  closed : ∀ q : PortId, (v.sessions[q]).isOpen = false → EmptyTables t q

/-- A session without zones takes no part in a step. -/
theorem State.stepWork_of_no_zones {s : State} {p : PortId} (h : ∀ z : ZoneId, ∀ x ∈ s.zones[z], x.owner ≠ p)
    (c : ChanId) : s.stepWork c p = (s.capture[p], []) := by
  have hslot : s.slotWork c p = fun done _ => done := by
    funext done z
    have hf : (s.zones[z]).filter (fun y => decide (y.channel = c ∧ y.owner = p)) = none := by
      rw [Option.filter_eq_none_iff]
      intro x hx
      simp [h z x hx]
    rw [State.slotWork, hf]
  rw [State.stepWork, hslot, List.foldl_fixed]

/-- An event posted reaches no CLOSED session (R92). -/
theorem State.posted_queue_of_closed {s : State} {q : PortId} (h : (s.sessions[q]).isOpen = false)
    (es : PortId → List Event) : (s.posted es).queues[q] = s.queues[q] := by
  simp only [Fin.getElem_fin] at h
  simp [h]

theorem TablesOnly.of_empty {v t u : State} (h : TablesOnly v t) (hp : u.ports = t.ports) (hs : u.sessions = t.sessions)
    (hc : ∀ q : PortId, (t.sessions[q]).isOpen = false → EmptyTables t q → EmptyTables u q) : TablesOnly v u :=
  ⟨hp.trans h.ports, hs.trans h.sessions, fun q ho => hc q (h.sessions ▸ ho) (h.closed q ho)⟩

theorem TablesOnly.of_queues {v t u : State} (h : TablesOnly v t) (hp : u.ports = t.ports)
    (hs : u.sessions = t.sessions)
    (hc : u.capture = t.capture) {es : PortId → List Event} (hq : u.queues = (t.posted es).queues) : TablesOnly v u :=
  h.of_empty hp hs fun q ho he => by
    rw [EmptyTables, hq, hc, State.posted_queue_of_closed ho]; exact he

theorem TablesOnly.congr {v t u : State} (h : TablesOnly v t) (hp : u.ports = t.ports) (hs : u.sessions = t.sessions)
    (hc : u.capture = t.capture) (hq : u.queues = t.queues) : TablesOnly v u :=
  h.of_empty hp hs fun q _ he => by rw [EmptyTables, hq, hc]; exact he

/-- The moves of the tables touch no session and no port, and hand nothing to a CLOSED session. -/
theorem tablesOnlyLaw (v : State) : TableLaw fun t => OwnershipLawful t ∧ TablesOnly v t where
  channel hm hs := ⟨ownershipLaw.channel hm hs.1, hs.2.congr rfl rfl rfl rfl⟩
  posted es hs := ⟨ownershipLaw.posted es hs.1, hs.2.of_queues rfl rfl rfl rfl⟩
  resynced c hs := ⟨ownershipLaw.resynced c hs.1,
    hs.2.of_queues (State.resynced_ports _ c) (State.resynced_sessions _ c) (State.resynced_capture _ c)
      (State.resynced_queues _ c)⟩
  zoneStep {s} c hs := ⟨ownershipLaw.zoneStep c hs.1,
    hs.2.of_empty (State.zoneStep_ports _ c) (State.zoneStep_sessions _ c) fun q ho he => by
      have hno : ∀ z : ZoneId, ∀ x ∈ s.zones[z], x.owner ≠ q := fun z x hx e => by
        subst e
        have := (hs.1.1 z x hx).1
        rw [ho] at this; cases this
      obtain ⟨hq, hc⟩ := State.zoneStep_work s c
      rw [EmptyTables, hq, hc q, State.stepWork_of_no_zones hno, State.posted_queue_of_closed ho]; exact he⟩
  zone hm hs := ⟨ownershipLaw.zone hm hs.1, by rw [State.recomputeLink_frame]; exact hs.2.congr rfl rfl rfl rfl⟩
  capture {s p} cause mask hm hs := ⟨ownershipLaw.capture cause hm hs.1,
    hs.2.of_empty (by rw [State.takeCapture_frame]) (by rw [State.takeCapture_frame]) fun q ho he => by
      rw [State.takeCapture_eq]
      have hq := State.posted_queue_of_closed
        (s := s.setCapture p ((s.capture[p]).meets (s.captureNow cause mask)).1) ho
      rw [EmptyTables, hq]
      refine ⟨he.1, he.2.1, ?_⟩
      have hne : q ≠ p := by
        rintro rfl
        rcases hm.opened with hopen | ⟨n, hn⟩
        · rw [ho] at hopen; cases hopen
        · exact hn (by rw [he.2.2]; simp [CaptureState.fresh])
      exact (get_set_of_ne _ hne _).trans he.2.2⟩
  ring {s p x} hm hs := ⟨ownershipLaw.ring hm hs.1,
    hs.2.of_empty rfl rfl fun q ho he => by
      refine ⟨he.1, he.2.1, ?_⟩
      rw [State.setCapture_capture]
      by_cases hne : q = p
      · subst hne
        rw [get_set_self]
        exact hm.opened.resolve_left (by rw [ho]; exact Bool.false_ne_true)
      · rw [get_set_of_ne _ hne]; exact he.2.2⟩
  capLevel n x hs := ⟨ownershipLaw.capLevel n x hs.1, hs.2.congr rfl rfl rfl rfl⟩
  queue {s p q'} hm hs := ⟨ownershipLaw.queue hm hs.1,
    hs.2.of_empty rfl rfl fun q ho he => by
      rw [EmptyTables, State.setQueue_queues]
      by_cases hne : q = p
      · subst hne
        rw [get_set_self]
        obtain ⟨h1, h2⟩ := hm.opened.resolve_left (by rw [ho]; exact Bool.false_ne_true)
        exact ⟨h1, h2, he.2.2⟩
      · rw [get_set_of_ne _ hne]; exact he⟩
  claim hfree ho hs :=
    ⟨ownershipLaw.claim hfree ho hs.1, by rw [State.claimedDrive_frame]; exact hs.2.congr rfl rfl rfl rfl⟩
  release hh hu hs := ⟨ownershipLaw.release hh hu hs.1, by
    rw [State.freeClaim_eq _ _ _ hh]; exact hs.2.of_queues rfl rfl rfl rfl⟩
  line hm hs := ⟨ownershipLaw.line hm hs.1, hs.2.congr rfl rfl rfl rfl⟩

theorem MastersLawful.tablesOnly_self {w : PortId → Prop} {v : State} (h : MastersLawful w v) : TablesOnly v v :=
  ⟨rfl, rfl, fun q ho => by obtain ⟨h1, h2, h3, -⟩ := (h q).closed ho; exact ⟨h1, h2, h3⟩⟩

theorem MastersLawful.of_tablesOnly {w : PortId → Prop} {v t : State} (h : MastersLawful w v) (ht : TablesOnly v t) :
    MastersLawful w t := by
  intro q
  rw [ht.ports, ht.sessions]
  exact (h q).tables (ht.closed q)

end Sys2Proof.Machine
end

section
/-! SUPPORT. The laws of the masters while the frames of one port are read: what the handling of a frame keeps. -/

namespace Sys2Proof.Machine

/-- The hub while the frames of port e are read: every master lawful, the AWAIT of e over an empty queue, those of the
others under a condition of their own. -/
structure Reading (X : PortId → Prop) (e : PortId) (t : State) : Prop where
  own : OwnershipLawful t
  released : (t.ports[e]).lrst = false
  masters : MastersLawful (fun q => if q = e then (t.queues[e]).records = [] else X q) t

namespace Reading
variable {X : PortId → Prop} {e : PortId} {t u : State}

theorem of_masters {w : PortId → Prop} (hown : OwnershipLawful t) (hl : (t.ports[e]).lrst = false)
    (h : MastersLawful w t) (hX : ∀ q : PortId, q ≠ e → w q → X q)
    (he : (t.ports[e]).awaiting.isSome = true → w e → (t.queues[e]).records = []) : Reading X e t := by
  refine ⟨hown, hl, h.mono fun q ha hw => ?_⟩
  split
  · rename_i hq; rw [hq] at ha hw; exact he ha hw
  · rename_i hq; exact hX q hq hw

/-- The laws kept where the AWAIT of e is no longer in flight or its queue is as it was. -/
theorem of_moved (hown : OwnershipLawful u) (hl : (u.ports[e]).lrst = false)
    (hm : MastersLawful (fun q => if q = e then (t.queues[e]).records = [] else X q) u)
    (he : (u.ports[e]).awaiting = none ∨ u.queues = t.queues) : Reading X e u := by
  refine .of_masters hown hl hm (fun q hq hw => by rwa [if_neg hq] at hw) fun ha hw => ?_
  rcases he with hn | hq
  · rw [hn] at ha; cases ha
  · rw [hq]; simpa using hw

theorem ofPortsOnly (h : Reading X e t) (hp : PortsOnly t u) (hl : (u.ports[e]).lrst = false)
    (hm : MastersLawful (fun q => if q = e then (t.queues[e]).records = [] else X q) u) : Reading X e u :=
  Reading.of_moved (ownershipLaw.ports hp h.own) hl hm (.inr hp.queues)

theorem setPort (h : Reading X e t) {y : Port} (hl : y.lrst = false)
    (hy : MasterLawful t.sessions[e] y t.queues[e] t.capture[e] ((t.queues[e]).records = [])) :
    Reading X e (t.setPort e y) :=
  h.ofPortsOnly (.setPort _ _ _) (by rw [State.setPort_ports, get_set_self]; exact hl)
    (h.masters.setPort (by simpa using hy))

theorem master (h : Reading X e t) :
    MasterLawful t.sessions[e] t.ports[e] t.queues[e] t.capture[e] ((t.queues[e]).records = []) := by
  simpa using h.masters e

theorem setReceiver (h : Reading X e t) {r : Receiver} (hr : r.lawful = true) (hn : r ≠ .hunt) :
    Reading X e (t.setReceiver e r (some Config.frameGap)) :=
  h.setPort h.released (h.master.setReceiver h.released hr (by simp [hn]) (by simp))

theorem framing (h : Reading X e t) : Reading X e (t.framing e) :=
  h.setPort h.released
    ((h.master.setReceiver h.released (r := .hunt) (g := none) rfl (by simp) (by simp)).setCounts _ _ _)

theorem crcError (h : Reading X e t) : Reading X e (t.crcError e) :=
  h.setPort h.released
    ((h.master.setReceiver h.released (r := .hunt) (g := none) rfl (by simp) (by simp)).setCounts _ _ _)

theorem frameAccepted (h : Reading X e t) : Reading X e (t.frameAccepted e) :=
  h.ofPortsOnly (.frameAccepted _ _) (by rw [State.frameAccepted_port]; exact h.released)
    (h.masters.frameAccepted h.released)

theorem send (h : Reading X e t) (hr : (t.ports[e]).HasRoom) (r : Response) : Reading X e (t.send e r) :=
  h.setPort (by rw [Port.send_lrst]; exact h.released) (h.master.sent hr r)

theorem answer (h : Reading X e t) (hr : (t.ports[e]).HasRoom) (tag : Byte) (k : Half) (st : Status) (rs : Results) :
    Reading X e (t.answer e tag k st rs) :=
  h.ofPortsOnly (.answer _ _ _ _ _ _)
    (by rw [State.answer_ports, get_set_self]; dsimp only; rw [Port.send_lrst]; exact h.released)
    (h.masters.answer hr _ _ _ _)

end Reading

/-! ## HUB_RESET -/

theorem State.answer_port_of_ne (s : State) {p q : PortId} (h : q ≠ p) (tag : Byte) (k : Half) (st : Status)
    (rs : Results) : (s.answer p tag k st rs).ports[q] = s.ports[q] := by
  rw [State.answer_ports]; exact get_set_of_ne _ h _

theorem State.stopAwait_port_of_ne (s : State) {p q : PortId} (h : q ≠ p) : (s.stopAwait p).ports[q] = s.ports[q] :=
  get_set_of_ne _ h _

theorem State.endAwait_port_of_ne (s : State) {p q : PortId} (h : q ≠ p) (st : Status) (rs : Results) :
    (s.endAwait p st rs).ports[q] = s.ports[q] := by
  rw [State.endAwait]
  split
  · rw [State.answer_port_of_ne _ h, State.stopAwait_port_of_ne s h]
  · rfl

theorem State.endAwaitByReset_port_of_ne (s : State) {p q : PortId} (h : q ≠ p) :
    (s.endAwaitByReset p).ports[q] = s.ports[q] := by
  rw [State.endAwaitByReset]
  split
  · rfl
  · split
    · exact (get_set_of_ne _ h _).trans (State.stopAwait_port_of_ne s h)
    · exact State.endAwait_port_of_ne s h _ _

theorem State.tornDown_port_of_ne (s : State) {p q : PortId} (h : q ≠ p) (cause : CloseCause) :
    (s.tornDown p cause).ports[q] = s.ports[q] := by
  rw [State.tornDown_ports]; exact get_set_of_ne _ h _

theorem mem_otherPorts {p q : PortId} : q ∈ otherPorts p ↔ q ≠ p := by
  revert p q; decide

/-- HUB_RESET leaves the requester's port to its answer (R151). -/
theorem State.hubReset_port_self (s : State) (e : PortId) : (s.hubReset e).ports[e] = s.ports[e] := by
  have h1 : ((otherPorts e).foldl State.resetSession s).ports[e] = s.ports[e] := by
    refine List.foldlRecOn (motive := fun u : State => u.ports[e] = s.ports[e]) _ _ rfl fun u hu q hq => ?_
    have hne : e ≠ q := (mem_otherPorts.mp hq).symm
    rw [State.resetSession]
    split
    · rw [State.teardown_eq]
      exact (State.tornDown_port_of_ne _ hne _).trans ((State.endAwaitByReset_port_of_ne u hne).trans hu)
    · exact hu
  refine List.foldlRecOn (motive := fun u : State => u.ports[e] = s.ports[e]) _ _ h1 fun u hu q hq => ?_
  exact (get_set_of_ne _ (mem_otherPorts.mp hq).symm _).trans hu

/-- The reset of the other ports' sessions keeps the masters lawful (R151). -/
theorem MastersLawful.hubReset {w : PortId → Prop} {t : State} (h : MastersLawful w t) (e : PortId) :
    MastersLawful w (t.hubReset e) := by
  have h1 : MastersLawful w ((otherPorts e).foldl State.resetSession t) := by
    refine List.foldlRecOn (motive := fun u : State => MastersLawful w u) _ _ h fun u hu q _ => ?_
    rw [State.resetSession]
    split
    · rw [State.teardown_eq]
      exact (hu.endAwaitByReset).tornDown (State.endAwaitByReset_awaiting u q) _
    · exact hu
  have hm : MastersLawful w ((otherPorts e).foldl State.resetPort
      ((otherPorts e).foldl State.resetSession t).resetShared) := by
    refine List.foldlRecOn (motive := fun u : State => MastersLawful w u) _ _ h1 fun u hu q _ => ?_
    exact hu.setPort (((hu q).setCounts 0 0 0).setCache (k := none) fun _ => rfl)
  refine hm.update (p := e) ?_ (fun _ _ => rfl) (fun _ _ => rfl) (fun _ hne => .inr (get_set_of_ne _ hne _))
    fun _ hne => get_set_of_ne _ hne _
  rw [State.hubReset, State.setQueue_queues, State.setQueue_capture, State.setCapture_capture, get_set_self,
    get_set_self]
  exact (hm e).tables fun _ => ⟨rfl, rfl, rfl⟩

/-! ## The execution of a request -/

/-- The execution of a request keeps the laws of the masters, and the port has room for its answer. -/
theorem Reading.effect {X : PortId → Prop} {e : PortId} {v : State} (h : Reading X e v) {k : Kind} {o : State × Reply}
    (he : Effect e v k o) (ho : Opened v e k) (hroom : (v.ports[e]).waiting.length ≤ 2)
    (hidle : (v.ports[e]).awaiting = none ∨ k = .cancel) :
    Reading X e o.1 ∧ (o.2 ≠ none → (o.1.ports[e]).HasRoom) := by
  have hr : (v.ports[e]).HasRoom := ⟨h.released, by split <;> omega⟩
  by_cases hk : k ∈ tableKinds
  · have hidle : (v.ports[e]).awaiting = none := hidle.resolve_right (by rintro rfl; simp [tableKinds] at hk)
    have hopen : (v.sessions[e]).isOpen = true :=
      ho.resolve_right (by rintro (rfl | rfl | rfl) <;> simp [tableKinds] at hk)
    obtain ⟨hown, htab⟩ := (tablesOnlyLaw v).effect he hk hopen ⟨h.own, h.masters.tablesOnly_self⟩
    have hp : o.1.ports[e] = v.ports[e] := by rw [htab.ports]
    rw [hp]
    exact ⟨Reading.of_moved hown (by rw [hp]; exact h.released) (h.masters.of_tablesOnly htab)
      (.inl (by rw [hp]; exact hidle)),
      fun _ => hr⟩
  cases he with
  | unchanged => exact ⟨h, fun _ => hr⟩
  | openSession n r hc =>
    have hm : MastersLawful (fun q => if q = e then (v.queues[e]).records = [] else X q)
        (((v.setSession e ((v.sessions[e]).opened n)).setCapture e CaptureState.fresh).setQueue e
          EventQueue.fresh) := by
      refine h.masters.update (p := e) ?_ (fun _ hne => get_set_of_ne _ hne _) (fun _ _ => rfl)
        (fun _ hne => .inr (get_set_of_ne _ hne _)) fun _ hne => get_set_of_ne _ hne _
      have hs : (((v.setSession e ((v.sessions[e]).opened n)).setCapture e CaptureState.fresh).setQueue e
          EventQueue.fresh).sessions[e] = (v.sessions[e]).opened n := get_set_self _ _ _
      rw [hs]
      exact (h.masters e).opens hc h.released n _ _
    exact ⟨Reading.of_moved (ownershipLaw.openSession e n hc h.own) h.released hm
      (.inl ((h.master.closed hc).2.2.2.2.1)), fun _ => hr⟩
  | closeSession r =>
    have hidle : (v.ports[e]).awaiting = none := hidle.resolve_right (by simp)
    have hp : (v.tornDown e .closed).ports[e] = { v.ports[e] with cache := none } := by
      rw [State.tornDown_ports, get_set_self]
    rw [State.teardown_eq]
    refine ⟨Reading.of_moved (ownershipLaw.teardown _ (ho.resolve_right (by simp)) h.own) (by rw [hp]; exact h.released)
      (h.masters.tornDown hidle _) (.inl (by rw [hp]; exact hidle)), fun _ => ?_⟩
    rw [hp]; exact ⟨hr.released, hr.room⟩
  | hubReset r hh =>
    have hidle : (v.ports[e]).awaiting = none := hidle.resolve_right (by simp)
    have hp := v.hubReset_port_self e
    rw [hp]
    exact ⟨Reading.of_moved (ownershipLaw.hubReset e h.own) (by rw [hp]; exact h.released) (h.masters.hubReset e)
      (.inl (by rw [hp]; exact hidle)),
      fun _ => hr⟩
  | await tag timeout hq =>
    have hopen : (v.sessions[e]).isOpen = true := ho.resolve_right (by simp)
    have hport : PortsOnly v ((v.setPort e
        { v.ports[e] with awaiting := some ⟨tag, timeout, timeout.toNat * Config.tenMs⟩ }).setSession e
        { v.sessions[e] with timer := .suspended }) := (PortsOnly.setPort v e _).trans (.setSession rfl)
    refine ⟨h.ofPortsOnly hport ?_ (h.masters.setBoth ?_), fun hn => absurd rfl hn⟩
    · rw [State.setSession_ports, State.setPort_ports, get_set_self]; exact h.released
    · exact (h.masters e).awaits hopen (by omega) _ (by simpa using hq)
  | cancel a r ha =>
    have hsome : (v.ports[e]).awaiting.isSome = true := by rw [ha]; rfl
    have hs := h.send hr ⟨a.tag, .cancelled, false, Kind.await.code, .none⟩
    have hopen := hs.master.open_of_awaiting (by rw [State.send_port, Port.send_awaiting]; exact hsome)
    have hroom := hs.master.hasRoom_stopped (by rw [State.send_port, Port.send_awaiting]; exact hsome)
    refine ⟨hs.ofPortsOnly (.stopAwait _ _) ?_ (hs.masters.stopAwait hopen), fun _ => ?_⟩
    · rw [State.stopAwait_port]; exact hs.released
    · rw [State.stopAwait_port]; exact hroom
  | portStatus r =>
    refine ⟨h.setPort h.released (h.master.setCounts _ _ _), fun _ => ?_⟩
    rw [State.setPort_ports, get_set_self]; exact ⟨hr.released, hr.room⟩
  | _ => exact absurd (by simp [tableKinds]) hk

theorem Reading.execute {X : PortId → Prop} {h : Head} {v : State} (hv : Reading X h.port v) {i : Instr} {k : Kind}
    (hi : i.request? = some (k, h)) (ho : Opened v h.port k) (hroom : (v.ports[h.port]).waiting.length ≤ 2)
    (hidle : (v.ports[h.port]).awaiting = none ∨ k = .cancel) : Reading X h.port (v.execute h k (requestAct i)) := by
  obtain ⟨hr, hroom'⟩ := hv.effect (requestAct_effect hi v) ho hroom hidle
  rw [State.execute]
  split
  · rename_i t st r ht
    rw [ht] at hr hroom'
    exact hr.answer (hroom' (by simp)) _ _ _ _
  · rename_i t ht
    rw [ht] at hr; exact hr

/-- A frame handled but not executed keeps the laws. -/
theorem Reading.handled {X : PortId → Prop} {h : Head} {code : Half} {s t : State} {executes : State → Prop}
    (ht : Handled s h code executes t) (hs : Reading X h.port s) (hx : executes t → Reading X h.port t) :
    Reading X h.port t := by
  have ha := hs.frameAccepted
  have hroom (hw : (s.ports[h.port]).waiting.length ≤ 2) : ((s.frameAccepted h.port).ports[h.port]).HasRoom := by
    rw [State.frameAccepted_port]
    exact ⟨hs.released, by dsimp only; split <;> omega⟩
  cases ht with
  | discarded => exact hs
  | overrun =>
    have hm := ha.master
    rw [State.frameAccepted_port] at hm
    exact ha.setPort hs.released (hm.setCounts _ _ _)
  | replayed r _ hw => exact ha.send (hroom hw) _
  | busy _ hw => exact ha.send (hroom hw) _
  | declined status results _ hw => exact ha.answer (hroom hw) _ _ _ _
  | executed _ he => exact hx he

/-- The handling of a frame that its command names keeps the laws of the masters. -/
theorem Reading.run {X : PortId → Prop} {e : PortId} {s : State} (hs : Reading X e s) {i : Instr}
    (hp : ∀ k h, i.request? = some (k, h) → h.port = e) (hu : ∀ h code, i = .unknownRequestKind h code → h.port = e) :
    Reading X e (runRequest i s) := by
  cases hi : i.request? with
  | some kh =>
    obtain ⟨k, h⟩ := kh
    obtain rfl := hp k h hi
    rw [runRequest_eq hi]
    refine hs.handled (State.request_handled s h k (requestAct i)) fun ⟨hadm, ht⟩ => ?_
    obtain ⟨-, hw, -, hidle, -, hpass⟩ := hadm
    rw [ht]
    refine hs.frameAccepted.execute hi ?_ ?_ ?_
    · rw [Opened, (PortsOnly.frameAccepted s h.port).isOpen]
      by_cases ho : (s.sessions[h.port]).isOpen = true
      · exact .inl ho
      · rw [if_neg ho] at hpass; exact .inr hpass
    · rw [State.frameAccepted_port]; exact hw
    · rw [State.frameAccepted_port]; exact hidle
  | none =>
    by_cases hx : ∃ h code, i = .unknownRequestKind h code
    · obtain ⟨h, code, rfl⟩ := hx
      obtain rfl := hu h code rfl
      exact hs.handled (State.unknownRequest_handled s h code) fun hf => hf.elim
    · rw [runRequest_of_no_request hi fun h code e => hx ⟨h, code, e⟩]; exact hs

theorem Reading.acceptBody {X : PortId → Prop} {e : PortId} {s : State} (hs : Reading X e s) (body : List Byte) :
    Reading X e (s.acceptBody e body) := by
  refine hs.run (fun k h hi => ?_) fun h code hi => ?_
  · rcases decodeRequest_cases e body with ⟨k', hk⟩ | ⟨code, -, hk⟩
    · rw [hk] at hi; cases hi; rfl
    · rw [hk] at hi; cases hi
  · rcases decodeRequest_cases e body with ⟨k', hk⟩ | ⟨code', -, hk⟩
    · rw [hi] at hk; cases hk
    · rw [hi] at hk; cases hk; rfl

theorem Reading.crcFailed {X : PortId → Prop} {e : PortId} {s : State} (hs : Reading X e s) (body : List Byte)
    (crc : Half) : Reading X e (s.crcFailed e body crc) :=
  examine_induction (fun _ _ ht hr hn => ht.setReceiver hr hn) (fun _ ht => ht.framing) (fun _ ht => ht.crcError)
    (fun _ body ht => ht.acceptBody body) _ _ _ hs.crcError

theorem Reading.takeByte {X : PortId → Prop} {e : PortId} {s : State} (hs : Reading X e s) (b : Byte) :
    Reading X e (s.takeByte e b) :=
  State.takeByte_induction b (fun _ hr hn => hs.setReceiver (hr hs.master.receiver) hn) hs.framing
    (fun body => hs.acceptBody body) (fun body crc => hs.crcFailed body crc) hs

end Sys2Proof.Machine
end

section
/-! SUPPORT. The laws of the sessions and ports over whole happenings, and the statement about them settled. -/

namespace Sys2Proof.Machine

/-- A port at the end of a happening (R169): an AWAIT whose queue the happening has stored records into is answered. -/
theorem MasterLawful.ended {s u : State} {q : PortId} {w : Prop}
    (h : MasterLawful u.sessions[q] u.ports[q] u.queues[q] u.capture[q] w)
    (hw : w → (u.queues[q]).records = [] ∨ (s.queues[q]).records = []) :
    MasterLawful (endedSession s u q) (endedPort s u q) u.queues[q] u.capture[q] ((u.queues[q]).records = []) := by
  cases ha : (u.ports[q]).awaiting with
  | none =>
    have hs : endedSession s u q = u.sessions[q] := by simp [endedSession, -Fin.getElem_fin, ha]
    have hp : endedPort s u q = u.ports[q] := by rw [endedPort, ha]
    rw [hs, hp]
    exact h.mono fun hsome => by rw [ha] at hsome; cases hsome
  | some a =>
    have hsome : (u.ports[q]).awaiting.isSome = true := by rw [ha]; rfl
    have hopen := h.open_of_awaiting hsome
    by_cases hst : stored s u q
    · have hs : endedSession s u q = { u.sessions[q] with timer := .running (u.sessions[q]).fullTime } := by
        rw [endedSession, if_pos ⟨hsome, hst⟩]
      rw [hs, endedPort, ha]
      simp only [if_pos hst]
      exact (h.stopped hopen _).answered (h.hasRoom_stopped hsome) _
    · have hs : endedSession s u q = u.sessions[q] := by rw [endedSession, if_neg fun hc => hst hc.2]
      have hp : endedPort s u q = u.ports[q] := by rw [endedPort, ha]; simp only [if_neg hst]
      rw [hs, hp]
      refine h.mono fun _ hwq => ?_
      rcases hw hwq with hu | hs
      · exact hu
      · rw [stored, hs, List.length_nil, not_lt] at hst
        exact List.length_eq_zero_iff.mp (Nat.le_zero.mp hst)

/-- The end of a happening leaves the ports lawful. -/
theorem MastersLawful.notify {s u : State} {w : PortId → Prop} (h : MastersLawful w u)
    (hw : ∀ q : PortId, w q → (u.queues[q]).records = [] ∨ (s.queues[q]).records = []) : PortsLawful (s.notify u) := by
  rw [State.notify_eq_awaitsEnded]
  refine portsLawful_iff.mpr fun q => ?_
  have he := (h q).ended (hw q)
  simpa [State.awaitsEnded] using he

theorem Reading.notify {s u : State} {e : PortId} (h : Reading (fun q => (s.queues[q]).records = []) e u) :
    PortsLawful (s.notify u) :=
  h.masters.notify fun q hq => by
    split at hq
    · rename_i he; rw [he]; exact .inl hq
    · exact .inr hq

/-- A port with LRST_n released may be read. -/
theorem Reading.of_lawful {s : State} (ho : OwnershipLawful s) (hp : PortsLawful s) {e : PortId}
    (hl : (s.ports[e]).lrst = false) : Reading (fun q => (s.queues[q]).records = []) e s :=
  .of_masters ho hl (portsLawful_iff.mp hp) (fun _ _ h => h) fun _ h => h

/-- A port held in reset takes no frame (R155). -/
theorem State.request_of_held {s : State} {h : Head} {k : Kind} {act : State → State × Reply}
    (hl : ¬ (s.ports[h.port]).lrst = false) : s.request h k act = s := by
  rw [State.request, if_neg fun ht => hl (State.takesFrame_iff.mp ht).1]

section
variable {s : State} (hp : PortsLawful s) (ho : OwnershipLawful s)
include hp ho

theorem PortsLawful.tables : OwnershipLawful s ∧ TablesOnly s s := ⟨ho, (portsLawful_iff.mp hp).tablesOnly_self⟩

theorem PortsLawful.request {i : Instr} {k : Kind} {h : Head} (hi : i.request? = some (k, h)) :
    PortsLawful (s.happening (runRequest i)) := by
  by_cases hl : (s.ports[h.port]).lrst = false
  · refine Reading.notify ((Reading.of_lawful ho hp hl).run (fun k' h' he => ?_) fun h' code he => ?_)
    · rw [hi] at he; cases he; rfl
    · rw [he] at hi; cases hi
  · rw [State.happening, runRequest_eq hi, State.request_of_held hl]
    exact (portsLawful_iff.mp hp).notify fun _ hq => .inr hq

theorem PortsLawful.unknownRequest (h : Head) (code : Half) :
    PortsLawful (s.happening fun t => t.unknownRequest h code) := by
  by_cases hl : (s.ports[h.port]).lrst = false
  · exact Reading.notify ((Reading.of_lawful ho hp hl).handled (State.unknownRequest_handled s h code)
      fun hf => hf.elim)
  · have hn : s.unknownRequest h code = s := by
      rw [State.unknownRequest, if_neg fun ht => hl (State.takesFrame_iff.mp ht).1]
    rw [State.happening, hn]
    exact (portsLawful_iff.mp hp).notify fun _ hq => .inr hq

theorem PortsLawful.takeByte (p : PortId) (b : Byte) : PortsLawful (s.happening fun t => t.takeByte p b) := by
  by_cases hl : (s.ports[p]).lrst = false
  · exact Reading.notify ((Reading.of_lawful ho hp hl).takeByte b)
  · have hn : s.takeByte p b = s := by rw [State.takeByte, if_pos (by simpa using hl)]
    rw [State.happening, hn]
    exact (portsLawful_iff.mp hp).notify fun _ hq => .inr hq

end

section
variable {s : State} (hp : PortsLawful s)
include hp

/-- What is done to the tables alone leaves the ports lawful at the end of its happening. -/
theorem PortsLawful.happening_of_tables {f : State → State} (hf : OwnershipLawful (f s) ∧ TablesOnly s (f s)) :
    PortsLawful (s.happening f) :=
  ((portsLawful_iff.mp hp).of_tablesOnly hf.2).notify fun _ hq => .inr hq

/-- An AWAIT ended in a happening of its own. -/
theorem PortsLawful.endAwait (p : PortId) (st : Status) (rs : Results) : PortsLawful (s.endAwait p st rs) := by
  refine portsLawful_iff.mpr (((portsLawful_iff.mp hp).endAwait (p := p) st rs).mono fun q _ hq => ?_)
  rw [(PortsOnly.endAwait s p st rs).queues]; exact hq

/-- The record of one port rewritten in a happening of its own. -/
theorem PortsLawful.setPort {p : PortId} {y : Port}
    (hy : MasterLawful s.sessions[p] y s.queues[p] s.capture[p] ((s.queues[p]).records = [])) :
    PortsLawful (s.setPort p y) :=
  portsLawful_iff.mpr ((portsLawful_iff.mp hp).setPort hy)

theorem PortsLawful.master (p : PortId) :
    MasterLawful s.sessions[p] s.ports[p] s.queues[p] s.capture[p] ((s.queues[p]).records = []) :=
  portsLawful_iff.mp hp p

/-- A silence timer runs only while no AWAIT is in flight (R143), so that its session is torn down without one. -/
theorem PortsLawful.silenceRunOut (p : PortId) : PortsLawful (s.happening fun t => t.silenceRunOut p) := by
  refine MastersLawful.notify (w := fun q => (s.queues[q]).records = []) ?_ fun _ hq => .inr hq
  change MastersLawful _ (s.silenceRunOut p)
  rw [State.silenceRunOut]
  split
  · rename_i hdue
    rw [State.teardown_eq]
    refine (portsLawful_iff.mp hp).tornDown ?_ _
    have hsil := (hp.master p).silence
    simp only [Session.silenceLawful, hdue.2, Bool.and_eq_true, Bool.not_eq_true', Option.isSome_eq_false_iff,
      Option.isNone_iff_eq_none] at hsil
    exact hsil.1.2
  · exact portsLawful_iff.mp hp

/-- LRST_n abandons an AWAIT, closes the session and clears the port (R154). -/
theorem PortsLawful.lrstAsserted (p : PortId) : PortsLawful (s.happening fun t => t.lrstAsserted p) := by
  refine MastersLawful.notify (w := fun q => (s.queues[q]).records = []) ?_ fun _ hq => .inr hq
  have hm := portsLawful_iff.mp hp
  change MastersLawful _ (s.lrstAsserted p)
  rw [State.lrstAsserted]
  split
  · exact hm
  dsimp only
  split
  · rename_i ho
    rw [State.teardown_eq]
    have hclosed : MasterLawful (s.tornDown p .portReset).sessions[p] ((s.tornDown p .portReset).ports[p]).lineReset
        (s.tornDown p .portReset).queues[p] (s.tornDown p .portReset).capture[p] ((s.queues[p]).records = []) := by
      rw [State.tornDown_sessions, State.tornDown_queue, State.tornDown_capture, get_set_self, get_set_self, if_pos rfl]
      exact .of_lineReset rfl rfl ⟨rfl, rfl, rfl⟩
    refine hm.update (p := p) ?_ (fun q hne => ?_) (fun q hne => ?_) (fun q hne => ?_) fun q hne => ?_
    · rw [State.setPort_ports, get_set_self]; exact hclosed
    · rw [State.setPort_sessions, State.tornDown_sessions]; exact get_set_of_ne _ hne _
    · exact (get_set_of_ne _ hne _).trans (State.tornDown_port_of_ne s hne _)
    · rw [State.setPort_queues, State.tornDown_queue, if_neg hne]
      by_cases hq : (s.sessions[q]).isOpen = true
      · exact .inl hq
      · exact .inr (State.posted_queue_of_closed (by simpa using hq) _)
    · rw [State.setPort_capture, State.tornDown_capture]; exact get_set_of_ne _ hne _
  · rename_i ho
    exact hm.setPort ((hm p).lineReset (by simpa using ho))

/-- A framing error leaves the receiver in HUNT. -/
theorem PortsLawful.framing {p : PortId} (hl : (s.ports[p]).lrst = false) : PortsLawful (s.framing p) :=
  hp.setPort (((hp.master p).setReceiver hl (r := .hunt) (g := none) rfl (by simp) (by simp)).setCounts _ _ _)

/-- The records of the tables rewritten in a happening that hands no queue a record. -/
theorem PortsLawful.of_tables {t : State} (hf : OwnershipLawful t ∧ TablesOnly s t) (hq : t.queues = s.queues) :
    PortsLawful t := by
  refine portsLawful_iff.mpr (((portsLawful_iff.mp hp).of_tablesOnly hf.2).mono fun q _ hw => ?_)
  rw [hq]; exact hw

/-- A port whose gap timer runs has a frame under assembly, so that LRST_n is released (R155, R161). -/
theorem PortsLawful.released_of_gap {p : PortId} {n : Nat} (hg : (s.ports[p]).gapTimer = some n) :
    (s.ports[p]).lrst = false := by
  by_contra hl
  obtain ⟨-, hr, -⟩ := (hp.master p).reset (by simpa using hl)
  exact (hp.master p).gap.mp (by rw [hg]; rfl) hr

theorem PortsLawful.increment : PortsLawful s.increment := by
  refine portsLawful_iff.mpr fun q => ?_
  have ht := (hp.master q).ticked
  simpa [State.increment] using ht

end

theorem PortsLawful.poweredOn (s : State) (pins : Pins) : PortsLawful (s.poweredOn pins) :=
  portsLawful_iff.mpr fun q => by
    have h := MasterLawful.atReset (pins.lrst.getLsbD q) (((s.poweredOn pins).queues[q]).records = [])
    simpa [State.poweredOn] using h

/-- Every command keeps the laws of the ports under the laws of ownership. -/
theorem PortsLawful.exec {s t : State} (ho : OwnershipLawful s) (hp : PortsLawful s) {c : Instr}
    (ht : exec c s = .next t) : PortsLawful t := by
  have hite : ∀ (c : Prop) [Decidable c] (u : State), (c → PortsLawful u) → PortsLawful (if c then u else s) :=
    fun c _ u hu => by
      split
      · rename_i hc; exact hu hc
      · exact hp
  have hself : PortsLawful (s.happening id) := (portsLawful_iff.mp hp).notify fun _ hq => .inr hq
  have htab := hp.tables ho
  cases hi : c.request? with
  | some kh =>
    obtain ⟨k, h⟩ := kh
    rw [exec_request_run hi] at ht
    exact BlocksLaw.of_next (hp.request ho hi) ht
  | none =>
    cases c with
    | powerOnReset pins => exact BlocksLaw.of_next (PortsLawful.poweredOn s pins) ht
    | abPairTransition c change =>
      exact BlocksLaw.of_next (hp.happening_of_tables (f := fun u => u.abTransition c change)
        ((tablesOnlyLaw s).pair c change htab)) ht
    | indexEdge c => exact BlocksLaw.of_next (hp.happening_of_tables (f := fun u => u.indexTransition c)
      ((tablesOnlyLaw s).index c htab)) ht
    | gateChange c => exact BlocksLaw.of_next (hp.of_tables (t := s.setChannel c (s.channels[c]).gateChanged)
      ((tablesOnlyLaw s).gate c htab) rfl) ht
    | captureLineEdge n => exact BlocksLaw.of_next (hp.happening_of_tables (f := fun u => u.lineEdge n)
      ((tablesOnlyLaw s).edge n htab)) ht
    | lrstNAsserted p => exact BlocksLaw.of_next (hp.lrstAsserted p) ht
    | lrstNReleased p => exact BlocksLaw.of_next (hp.setPort (hp.master p).lineReleased) ht
    | crcFailure p body crc =>
      refine BlocksLaw.of_next ?_ ht
      rw [State.happening]
      split
      · rename_i hc
        exact Reading.notify ((Reading.of_lawful ho hp (State.takesFrame_iff.mp hc.1).1).crcFailed body crc)
      · exact hself
    | framingError p n => exact BlocksLaw.of_next (hite _ _ fun hc => hp.framing hc.1) ht
    | frameGapTimeout p => exact BlocksLaw.of_next (hite _ _ fun hc => hp.framing (hp.released_of_gap hc)) ht
    | pulseTimerExpiry k =>
      exact BlocksLaw.of_next (hite _ _ fun hk => hp.of_tables ((tablesOnlyLaw s).pulse hk htab) rfl) ht
    | silenceTimeout p => exact BlocksLaw.of_next (hp.silenceRunOut p) ht
    | awaitTimeout p => exact BlocksLaw.of_next (hite _ _ fun _ => hp.endAwait p _ _) ht
    | awaitEndedByStore p => exact BlocksLaw.of_next (hite _ _ fun _ => hp.endAwait p _ _) ht
    | responseSent p => exact BlocksLaw.of_next (hp.setPort (hp.master p).sentWhole) ht
    | timestampIncrement => exact BlocksLaw.of_next hp.increment ht
    | frameByteTaken p b => exact BlocksLaw.of_next (hp.takeByte ho p b) ht
    | unknownRequestKind h code =>
      refine BlocksLaw.of_next ?_ ht
      rw [State.happening]
      split
      · exact hp.unknownRequest ho h code
      · exact hself
    | _ => cases hi

/-- Settles O10: the masters' records are lawful in the middle of every happening, but for AWAITs over records that the
end of the happening answers them with. -/
theorem stepKeepsPortsLawful : Obligations.StepKeepsPortsLawful := by
  unfold Obligations.StepKeepsPortsLawful
  intro s t ho hp ht
  rw [step] at ht
  split at ht
  · exact BlocksLaw.of_next hp ht
  · rename_i c rest _
    exact PortsLawful.exec (s := s.setPending rest) (ho.congr rfl rfl rfl fun _ => rfl) hp ht

end Sys2Proof.Machine
end

section
/-! SUPPORT. What responses hold: the length of each layout, and the results that each request gives. -/

namespace Sys2Proof.Machine

/-! ## The length of a body (R179, R182, R184, R185) -/

@[simp] theorem wordBytes_length (w : Word) : (wordBytes w).length = 4 := rfl
@[simp] theorem halfBytes_length (w : Half) : (halfBytes w).length = 2 := rfl
@[simp] theorem countBytes_length (n : Int) : (countBytes n).length = 4 := rfl
@[simp] theorem turnsBytes_length (n : Int) : (turnsBytes n).length = 2 := rfl

theorem length_flatMap_const {α β : Type} {f : α → List β} {n : Nat} (l : List α) (h : ∀ x, (f x).length = n) :
    (l.flatMap f).length = n * l.length := by
  simp [List.length_flatMap, h, Nat.mul_comm]

@[simp] theorem EventRecord.bytes_length (r : EventRecord) : r.bytes.length = 13 := rfl
@[simp] theorem ChannelEntry.bytes_length (e : ChannelEntry) : e.bytes.length = 9 := rfl
@[simp] theorem linkBytes_length (l : Option Link) : (linkBytes l).length = 2 := by cases l <;> rfl
@[simp] theorem subBytes_length (u : Option Subscription) : (subBytes u).length = 2 := by cases u <;> rfl
@[simp] theorem claimBytes_length (x : Option Claim) : (claimBytes x).length = 6 := by cases x <;> rfl
@[simp] theorem ActionSet.bytes_length (a : ActionSet) : a.bytes.length = 3 := rfl

/-- The results take the bytes that R182 and R185 give them. -/
theorem Results.bytes_length (x : Results) : x.bytes.length = x.size := by
  cases x with
  | zoneList zs =>
    rw [Results.bytes, List.length_cons, length_flatMap_const zs (n := 3) fun _ => rfl, Results.size]; omega
  | captureRecord r =>
    simp only [Results.bytes, CaptureRecord.bytes, List.length_append, Results.size,
      length_flatMap_const r.entries ChannelEntry.bytes_length, halfBytes_length, wordBytes_length, List.length_cons,
      List.length_nil]
  | events rs n =>
    simp only [Results.bytes, List.length_append, Results.size, length_flatMap_const rs EventRecord.bytes_length,
      List.length_cons, List.length_nil]
  | claimList cl =>
    rw [Results.bytes, length_flatMap_const _ (n := 7) fun _ => by simp, List.length_finRange]; rfl
  | zoneRecord id z => simp [Results.bytes, zoneBytes, Results.size]
  | captureStatus fill next policy subs lost => simp [Results.bytes, Results.size]
  | _ => rfl

theorem Response.body_length (r : Response) : r.body.length = 5 + r.results.size := by
  simp only [Response.body, List.length_append, Results.bytes_length, halfBytes_length, List.length_cons,
    List.length_nil]

/-! ## What a request is answered with (R178, R182) -/

/-- The results are those of the status and the kind, and leave the body within its 120 bytes. -/
structure ResultsFit (code : Half) (status : Status) (results : Results) : Prop where
  laidOut : (⟨0, status, false, code, results⟩ : Response).laidOut = true
  size : results.size ≤ 115

theorem Response.fits_iff {r : Response} : r.Fits ↔ ResultsFit r.kind r.status r.results := by
  have hl : (⟨0, r.status, false, r.kind, r.results⟩ : Response).laidOut = r.laidOut := rfl
  constructor
  · rintro ⟨h, hb⟩
    exact ⟨hl.trans h, by rw [Response.body_length] at hb; omega⟩
  · rintro ⟨h, hb⟩
    exact ⟨hl.symm.trans h, by rw [Response.body_length]; omega⟩

/-- A reply, if there is one, fits its frame. -/
abbrev ReplyFits (k : Kind) (o : Reply) : Prop := ∀ r ∈ o, ResultsFit k.code r.1 r.2

theorem ReplyFits.of_some {k : Kind} {status : Status} {results : Results}
    (h : (⟨0, status, false, k.code, results⟩ : Response).laidOut = true)
    (hs : decide (results.size ≤ 115) = true) :
    ReplyFits k (some (status, results)) := by
  rintro _ ⟨⟩; exact ⟨h, of_decide_eq_true hs⟩

/-- A lawful record has at most one entry for each channel (R67). -/
theorem CaptureRecord.Lawful.entries_length {r : CaptureRecord} (h : r.Lawful) : r.entries.length ≤ 8 := by
  have := congrArg List.length h.2
  rw [List.length_map] at this
  rw [this]
  exact (List.length_filter_le _ _).trans (by simp)

theorem State.withOwnZone_fits {p : PortId} {s : State} {k : Kind} {zone : Byte} {f : ZoneId → Zone → State × Reply}
    (hf : ∀ z x, ReplyFits k (f z x).2) : ReplyFits k (s.withOwnZone p zone f).2 := by
  rw [State.withOwnZone]
  split
  · exact .of_some rfl rfl
  · split
    · exact hf _ _
    · exact .of_some rfl rfl

/-- Every request is answered with results of its status and kind that fit a frame: most with one of the fixed layouts,
ZONE_LIST with at most 32 zones, CAP_FETCH with at most 8 entries, EVT_READ with at most 8 records. -/
theorem requestAct_replyFits {i : Instr} {k : Kind} {h : Head} (hi : i.request? = some (k, h)) {s : State}
    (hr : RingsLawful s) : ReplyFits k (requestAct i s).2 := by
  cases i with
  | zoneList h =>
    cases hi
    refine .of_some rfl (decide_eq_true ?_)
    have : s.zoneSummary.length ≤ 32 := (List.length_filterMap_le _ _).trans (by simp)
    simp only [Results.size]; omega
  | capFetch h =>
    cases hi
    simp only [requestAct, actCapFetch]
    split
    · rename_i r rest hring
      refine .of_some rfl (decide_eq_true ?_)
      obtain ⟨-, -, hrec, -⟩ := hr h.port
      have := (hrec r (by rw [hring]; exact List.mem_cons_self)).entries_length
      simp only [Results.size]; omega
    · exact .of_some rfl rfl
  | evtRead h n =>
    cases hi
    simp only [requestAct, actEvtRead]
    split
    · exact .of_some rfl rfl
    · rename_i hn
      refine .of_some rfl (decide_eq_true ?_)
      simp only [Config.maxRead, not_or, not_lt] at hn
      simp only [Results.size, List.length_take]; omega
  | zoneArm h z =>
    cases hi
    refine State.withOwnZone_fits fun z x => ?_
    dsimp only
    split <;> exact .of_some rfl rfl
  | zoneDisarm h z =>
    cases hi
    refine State.withOwnZone_fits fun z x => ?_
    split <;> exact .of_some rfl rfl
  | zoneDelete h z => cases hi; exact State.withOwnZone_fits fun z x => .of_some rfl rfl
  | await h x =>
    cases hi; simp only [requestAct, actAwait]
    split
    · exact .of_some rfl rfl
    · split
      · exact .of_some rfl rfl
      · exact fun _ hr => nomatch hr
  | timeRead | claimList | capStatus | closeSession | nop | ident | portStatus =>
    cases hi; exact .of_some rfl rfl
  | chanRead | zoneRead | capPolicy | evtAttn | outRead | hubReset | cancel =>
    cases hi
    simp only [requestAct, actChanRead, actZoneRead, actCapPolicy, actEvtAttn, actOutRead, actHubReset, actCancel]
    split <;> exact .of_some rfl rfl
  | chanConfig | chanPreset | chanHome | chanClearFault | zoneCreate | capture | capSubscribe | capAck | claim | release
  | outMode | outSet | openSession =>
    cases hi
    simp only [requestAct, actChanConfig, actChanPreset, actChanHome, actChanClearFault, actZoneCreate, actCapture,
      actCapSubscribe, actCapAck, actClaim, actRelease, actOutMode, actOutSet, actOpenSession]
    repeat' split
    all_goals exact .of_some rfl rfl
  | _ => cases hi

end Sys2Proof.Machine
end

section
/-! SUPPORT. Every response that a port caches, sends or holds fits its frame, whatever a happening does. -/

namespace Sys2Proof.Machine

/-- The responses of one port fit their frames. -/
abbrev Port.AllFit (y : Port) : Prop := (∀ r ∈ y.cache, r.Fits) ∧ (∀ r ∈ y.sending, r.Fits) ∧ (∀ r ∈ y.waiting, r.Fits)

namespace Port.AllFit
variable {y : Port}

theorem sent (h : y.AllFit) {r : Response} (hr : r.Fits) : (y.send r).AllFit := by
  obtain ⟨hc, hs, hw⟩ := h
  rw [Port.send]
  split
  · exact ⟨hc, fun x hx => by cases hx; exact hr, hw⟩
  · refine ⟨hc, hs, fun x hx => ?_⟩
    rcases List.mem_append.mp hx with hx | hx
    · exact hw x hx
    · rw [List.mem_singleton.mp hx]; exact hr

/-- A response that a port caches is one of those it has fitted. -/
theorem setCache (h : y.AllFit) {k : Option Response} (hk : ∀ r ∈ k, r.Fits) : ({ y with cache := k } : Port).AllFit :=
  ⟨hk, h.2⟩

theorem sentWhole (h : y.AllFit) : y.sentWhole.AllFit := by
  obtain ⟨hc, hs, hw⟩ := h
  rw [Port.sentWhole]
  split
  · exact ⟨hc, fun x hx => hw x (List.mem_of_mem_head? hx), fun x hx => hw x (List.mem_of_mem_tail hx)⟩
  · exact ⟨hc, hs, hw⟩

end Port.AllFit

theorem responsesFit_iff {s : State} : ResponsesFit s ↔ ∀ p : PortId, (s.ports[p]).AllFit := Iff.rfl

namespace ResponsesFit
variable {s t : State} {p : PortId}

theorem of_ports (h : ResponsesFit s) (hp : t.ports = s.ports) : ResponsesFit t := by
  rw [ResponsesFit, hp]; exact h

theorem setPort (h : ResponsesFit s) {y : Port} (hy : y.AllFit) : ResponsesFit (s.setPort p y) :=
  forall_get_set (Q := fun _ (y : Port) => y.AllFit) hy h

theorem send (h : ResponsesFit s) {r : Response} (hr : r.Fits) : ResponsesFit (s.send p r) :=
  h.setPort (Port.AllFit.sent (h p) hr)

theorem answer (h : ResponsesFit s) {tag : Byte} {k : Half} {st : Status} {rs : Results} (hr : ResultsFit k st rs) :
    ResponsesFit (s.answer p tag k st rs) := by
  have hf : (⟨tag, st, false, k, rs⟩ : Response).Fits := Response.fits_iff.mpr hr
  rw [ResponsesFit, State.answer_ports]
  refine forall_get_set (Q := fun _ (y : Port) => y.AllFit) ?_ h
  refine (Port.AllFit.sent (h p) hf).setCache fun x hx => ?_
  split at hx
  · cases hx; exact hf
  · exact (h p).1 x hx

theorem stopAwait (h : ResponsesFit s) : ResponsesFit (s.stopAwait p) :=
  (h.setPort (y := { s.ports[p] with awaiting := none }) (h p)).of_ports rfl

theorem endAwait (h : ResponsesFit s) {st : Status} {rs : Results} (hr : ResultsFit Kind.await.code st rs) :
    ResponsesFit (s.endAwait p st rs) := by
  rw [State.endAwait]
  split
  · exact h.stopAwait.answer hr
  · exact h

theorem endAwaitByStore (h : ResponsesFit s) : ResponsesFit (s.endAwaitByStore p) :=
  h.endAwait ⟨rfl, of_decide_eq_true rfl⟩

theorem notify (h : ResponsesFit t) : ResponsesFit (s.notify t) :=
  List.foldlRecOn (motive := fun u : State => ResponsesFit u) portIds _ h fun u hu p _ => by
    split
    · exact hu.endAwaitByStore
    · exact hu

theorem tornDown (h : ResponsesFit s) (cause : CloseCause) : ResponsesFit (s.tornDown p cause) := by
  rw [ResponsesFit, State.tornDown_ports]
  exact forall_get_set (Q := fun _ (y : Port) => y.AllFit) (Port.AllFit.setCache (h p) fun _ hr => nomatch hr) h

theorem endAwaitByReset (h : ResponsesFit s) : ResponsesFit (s.endAwaitByReset p) := by
  rw [State.endAwaitByReset]
  split
  · exact h
  · split
    · exact h.stopAwait.send (Response.fits_iff.mpr ⟨rfl, of_decide_eq_true rfl⟩)
    · exact h.endAwaitByStore

theorem hubReset (h : ResponsesFit s) : ResponsesFit (s.hubReset p) := by
  have h1 : ResponsesFit ((otherPorts p).foldl State.resetSession s) :=
    List.foldlRecOn (motive := fun u : State => ResponsesFit u) _ _ h fun u hu q _ => by
      rw [State.resetSession]
      split
      · rw [State.teardown_eq]; exact hu.endAwaitByReset.tornDown _
      · exact hu
  have h2 : ResponsesFit ((otherPorts p).foldl State.resetPort
      ((otherPorts p).foldl State.resetSession s).resetShared) :=
    List.foldlRecOn (motive := fun u : State => ResponsesFit u) _ _ (h1.of_ports rfl) fun u hu q _ =>
      hu.setPort (Port.AllFit.setCache (hu q) fun _ hr => nomatch hr)
  exact h2.of_ports rfl

end ResponsesFit

/-- The moves of the tables touch no port. -/
theorem portsFrameLaw (v : Vector Port 3) : TableLaw fun t => t.ports = v where
  channel _ hs := hs
  posted _ hs := hs
  resynced c hs := (State.resynced_ports _ c).trans hs
  zoneStep c hs := (State.zoneStep_ports _ c).trans hs
  zone _ hs := by rw [State.recomputeLink_frame]; exact hs
  capture _ _ _ hs := by rw [State.takeCapture_frame]; exact hs
  ring _ hs := hs
  capLevel _ _ hs := hs
  queue _ hs := hs
  claim _ _ hs := by rw [State.claimedDrive_frame]; exact hs
  release hh _ hs := by rw [State.freeClaim_frame hh]; exact hs
  line _ hs := hs

/-- The execution of a request leaves fitting responses. -/
theorem ResponsesFit.effect {e : PortId} {v : State} (h : ResponsesFit v) {k : Kind} {o : State × Reply}
    (he : Effect e v k o) (ho : Opened v e k) : ResponsesFit o.1 := by
  by_cases hk : k ∈ tableKinds
  · have hopen : (v.sessions[e]).isOpen = true :=
      ho.resolve_right (by rintro (rfl | rfl | rfl) <;> simp [tableKinds] at hk)
    exact h.of_ports ((portsFrameLaw v.ports).effect he hk hopen rfl)
  cases he with
  | unchanged => exact h
  | openSession n r hc => exact h.of_ports rfl
  | closeSession r => rw [State.teardown_eq]; exact h.tornDown _
  | hubReset r hh => exact h.hubReset
  | await tag timeout hq => exact (h.setPort (p := e) (y := { v.ports[e] with
      awaiting := some ⟨tag, timeout, timeout.toNat * Config.tenMs⟩ }) (h e)).of_ports rfl
  | cancel a r ha => exact (h.send (Response.fits_iff.mpr ⟨rfl, of_decide_eq_true rfl⟩)).stopAwait
  | portStatus r => exact h.setPort (h e)
  | _ => exact absurd (by simp [tableKinds]) hk

/-- The refusals of the port and the session fit any kind, the unknown ones included. -/
theorem Declines.fits {st : Status} {rs : Results} (h : Declines st rs) (code : Half) : ResultsFit code st rs := by
  rcases h with ⟨rfl | rfl | rfl, rfl⟩ | ⟨rfl, c, rfl⟩ <;> exact ⟨rfl, of_decide_eq_true rfl⟩

section
variable {s : State}

theorem ResponsesFit.frameAccepted (h : ResponsesFit s) (p : PortId) : ResponsesFit (s.frameAccepted p) :=
  (h.setPort (y := { s.ports[p] with receiver := .hunt, gapTimer := none }) (h p)).of_ports rfl

theorem ResponsesFit.handled {h : Head} {code : Half} {t : State} {executes : State → Prop}
    (ht : Handled s h code executes t) (hs : ResponsesFit s) (hx : executes t → ResponsesFit t) : ResponsesFit t := by
  have ha := hs.frameAccepted h.port
  cases ht with
  | discarded => exact hs
  | overrun => exact ha.setPort (hs h.port)
  | replayed r _ _ hr =>
    exact ha.send (Response.fits_iff.mpr (Response.fits_iff.mp ((hs h.port).1 r hr)))
  | busy => exact ha.send (Response.fits_iff.mpr ⟨rfl, of_decide_eq_true rfl⟩)
  | declined status results _ _ hd => exact ha.answer (hd.fits code)
  | executed _ he => exact hx he

/-- The handling of a frame, under the laws of the rings. -/
theorem ResponsesFit.run (hs : ResponsesFit s) (hr : RingsLawful s) (i : Instr) : ResponsesFit (runRequest i s) := by
  cases hi : i.request? with
  | some kh =>
    obtain ⟨k, h⟩ := kh
    rw [runRequest_eq hi]
    refine hs.handled (State.request_handled s h k (requestAct i)) fun ⟨hadm, ht⟩ => ?_
    obtain ⟨-, -, -, -, -, hpass⟩ := hadm
    have hacc := PortsOnly.frameAccepted s h.port
    have hopen : Opened (s.frameAccepted h.port) h.port k := by
      rw [Opened, hacc.isOpen]
      by_cases ho : (s.sessions[h.port]).isOpen = true
      · exact .inl ho
      · rw [if_neg ho] at hpass; exact .inr hpass
    have he := (hs.frameAccepted h.port).effect (requestAct_effect hi _) hopen
    have hf := requestAct_replyFits hi (ringsLaw.ports hacc hr)
    rw [ht, State.execute]
    split
    · rename_i t st r hact
      rw [hact] at he hf
      exact he.answer (hf _ rfl)
    · rename_i t hact
      rw [hact] at he; exact he
  | none =>
    by_cases hx : ∃ h code, i = .unknownRequestKind h code
    · obtain ⟨h, code, rfl⟩ := hx
      exact hs.handled (State.unknownRequest_handled s h code) fun hf => hf.elim
    · rw [runRequest_of_no_request hi fun h code e => hx ⟨h, code, e⟩]; exact hs

/-- The laws of the rings and the fit of the responses, which the reading of a port's frames keeps together. -/
abbrev RingsAndFit (s : State) : Prop := RingsLawful s ∧ ResponsesFit s

theorem RingsAndFit.setPort (h : RingsAndFit s) {p : PortId} {y : Port} (hy : y.AllFit) : RingsAndFit (s.setPort p y) :=
  ⟨ringsLaw.ports (.setPort s p y) h.1, h.2.setPort hy⟩

theorem RingsAndFit.acceptBody (h : RingsAndFit s) (p : PortId) (body : List Byte) :
    RingsAndFit (s.acceptBody p body) :=
  ⟨ringsLaw.blocksLaw.run _ h.1, h.2.run h.1 _⟩

theorem RingsAndFit.crcFailed (h : RingsAndFit s) (p : PortId) (body : List Byte) (crc : Half) :
    RingsAndFit (s.crcFailed p body crc) :=
  examine_induction (fun _ _ ht _ _ => ht.setPort (ht.2 p)) (fun _ ht => ht.setPort (ht.2 p))
    (fun _ ht => ht.setPort (ht.2 p)) (fun _ body ht => ht.acceptBody p body) _ _ _ (h.setPort (h.2 p))

theorem RingsAndFit.takeByte (h : RingsAndFit s) (p : PortId) (b : Byte) : RingsAndFit (s.takeByte p b) :=
  State.takeByte_induction b (fun _ _ _ => h.setPort (h.2 p)) (h.setPort (h.2 p)) (fun body => h.acceptBody p body)
    (fun body crc => h.crcFailed p body crc) h

theorem ResponsesFit.lrstAsserted (h : ResponsesFit s) (p : PortId) : ResponsesFit (s.lrstAsserted p) := by
  rw [State.lrstAsserted]
  split
  · exact h
  have ht : ResponsesFit (if (s.sessions[p]).isOpen = true then s.teardown p .portReset else s) := by
    split
    · rw [State.teardown_eq]; exact h.tornDown _
    · exact h
  exact ht.setPort ⟨fun _ hr => (nomatch hr), (ht p).2.1, fun _ hr => (nomatch hr)⟩

theorem ResponsesFit.silenceRunOut (h : ResponsesFit s) (p : PortId) : ResponsesFit (s.silenceRunOut p) := by
  rw [State.silenceRunOut]
  split
  · rw [State.teardown_eq]; exact h.tornDown _
  · exact h

/-- Every command leaves fitting responses, under the laws of the rings. -/
theorem ResponsesFit.exec {t : State} (hr : RingsLawful s) (hs : ResponsesFit s) {c : Instr}
    (ht : exec c s = .next t) : ResponsesFit t := by
  have hite : ∀ (c : Prop) [Decidable c] (u : State), (c → ResponsesFit u) → ResponsesFit (if c then u else s) :=
    fun c _ u hu => by
      split
      · rename_i hc; exact hu hc
      · exact hs
  have hsame : ∀ {p : PortId} {y : Port}, y.AllFit → ResponsesFit (s.setPort p y) := fun hy => hs.setPort hy
  have htab {f : State → State} (hf : (f s).ports = s.ports) : ResponsesFit (s.happening f) :=
    (hs.of_ports hf).notify
  have hlaw := portsFrameLaw s.ports
  cases hi : c.request? with
  | some kh =>
    obtain ⟨k, h⟩ := kh
    rw [exec_request_run hi] at ht
    exact BlocksLaw.of_next (hs.run hr c).notify ht
  | none =>
    cases c with
    | powerOnReset pins =>
      exact BlocksLaw.of_next (responsesFit_iff.mpr fun p => by simp [State.poweredOn, Port.atReset]) ht
    | abPairTransition c change =>
      exact BlocksLaw.of_next (htab (f := fun u => u.abTransition c change) (hlaw.pair c change rfl)) ht
    | indexEdge c => exact BlocksLaw.of_next (htab (f := fun u => u.indexTransition c) (hlaw.index c rfl)) ht
    | gateChange c => refine BlocksLaw.of_next ?_ ht; exact (hs.of_ports rfl)
    | captureLineEdge n => exact BlocksLaw.of_next (htab (f := fun u => u.lineEdge n) (hlaw.edge n rfl)) ht
    | lrstNAsserted p => exact BlocksLaw.of_next (hs.lrstAsserted p).notify ht
    | lrstNReleased p => refine BlocksLaw.of_next ?_ ht; exact (hsame (hs p))
    | crcFailure p body crc =>
      refine BlocksLaw.of_next (ResponsesFit.notify ?_) ht
      exact hite _ _ fun _ => (RingsAndFit.crcFailed ⟨hr, hs⟩ p body crc).2
    | framingError p n => refine BlocksLaw.of_next ?_ ht; exact (hite _ _ fun _ => hsame (hs p))
    | frameGapTimeout p => refine BlocksLaw.of_next ?_ ht; exact (hite _ _ fun _ => hsame (hs p))
    | pulseTimerExpiry k => refine BlocksLaw.of_next ?_ ht; exact (hite _ _ fun _ => hs.of_ports rfl)
    | silenceTimeout p => exact BlocksLaw.of_next (hs.silenceRunOut p).notify ht
    | awaitTimeout p => exact BlocksLaw.of_next (hite _ _ fun _ => hs.endAwait ⟨rfl, of_decide_eq_true rfl⟩) ht
    | awaitEndedByStore p => exact BlocksLaw.of_next (hite _ _ fun _ => hs.endAwaitByStore) ht
    | responseSent p => exact BlocksLaw.of_next (hsame (Port.AllFit.sentWhole (hs p))) ht
    | timestampIncrement =>
      exact BlocksLaw.of_next (responsesFit_iff.mpr fun p => by
        have h : (s.ports[p]).tick.AllFit := hs p
        simpa [State.increment] using h) ht
    | frameByteTaken p b => exact BlocksLaw.of_next (RingsAndFit.takeByte ⟨hr, hs⟩ p b).2.notify ht
    | unknownRequestKind h code =>
      refine BlocksLaw.of_next (ResponsesFit.notify ?_) ht
      exact hite _ _ fun _ => hs.run hr (.unknownRequestKind h code)
    | _ => cases hi

end

/-- Settles O11: each reply has the results of its status and kind, and nothing else reaches a port. -/
theorem stepKeepsResponsesWithinTheirFrames : Obligations.StepKeepsResponsesWithinTheirFrames := by
  unfold Obligations.StepKeepsResponsesWithinTheirFrames
  intro s t hr hs ht
  rw [step] at ht
  split at ht
  · exact BlocksLaw.of_next hs ht
  · rename_i c rest _
    exact ResponsesFit.exec (s := s.setPending rest) hr hs ht

end Sys2Proof.Machine
end

section
/-! SUPPORT. The receiver of a port: what the handling of a frame makes of it, and the bytes of a frame taken one by one
(R155, R158 to R161). -/

namespace Sys2Proof.Machine

@[simp] theorem State.setPort_setPort (s : State) (p : PortId) (x y : Port) :
    (s.setPort p x).setPort p y = s.setPort p y := by
  simp [State.setPort]

theorem State.setPort_port (s : State) (p : PortId) (x : Port) : (s.setPort p x).ports[p] = x := get_set_self _ _ _

/-! ## The receiver is nothing to the handling of a frame -/

section
variable (s : State) (p : PortId) (r : Receiver) (g : Option Nat)

theorem State.setReceiver_port : (s.setReceiver p r g).ports[p] = { s.ports[p] with receiver := r, gapTimer := g } :=
  State.setPort_port _ _ _

theorem State.setReceiver_setReceiver (r' : Receiver) (g' : Option Nat) :
    (s.setReceiver p r g).setReceiver p r' g' = s.setReceiver p r' g' := by
  rw [State.setReceiver, State.setReceiver_port, State.setReceiver, State.setPort_setPort]; rfl

theorem State.framing_setReceiver : (s.setReceiver p r g).framing p = s.framing p := by
  rw [State.framing, State.setReceiver_port, State.setReceiver, State.setPort_setPort]; rfl

theorem State.crcError_setReceiver : (s.setReceiver p r g).crcError p = s.crcError p := by
  rw [State.crcError, State.setReceiver_port, State.setReceiver, State.setPort_setPort]; rfl

theorem State.frameAccepted_setReceiver : (s.setReceiver p r g).frameAccepted p = s.frameAccepted p := by
  rw [State.frameAccepted, State.setReceiver_port, State.setReceiver, State.setPort_setPort]; rfl

end

/-- A frame that is taken is handled alike whatever the receiver was, for its acceptance sets the receiver (R159). -/
theorem State.request_setReceiver {s : State} {h : Head} (ht : s.takesFrame h = true) (r : Receiver) (g : Option Nat)
    (k : Kind) (act : State → State × Reply) : (s.setReceiver h.port r g).request h k act = s.request h k act := by
  have ht' : (s.setReceiver h.port r g).takesFrame h = true := by
    rw [State.takesFrame_iff, State.setReceiver_port]; exact State.takesFrame_iff.mp ht
  rw [State.request, State.request, if_pos ht, if_pos ht', State.frameAccepted_setReceiver]

theorem State.unknownRequest_setReceiver {s : State} {h : Head} (ht : s.takesFrame h = true) (r : Receiver)
    (g : Option Nat) (code : Half) : (s.setReceiver h.port r g).unknownRequest h code = s.unknownRequest h code := by
  have ht' : (s.setReceiver h.port r g).takesFrame h = true := by
    rw [State.takesFrame_iff, State.setReceiver_port]; exact State.takesFrame_iff.mp ht
  rw [State.unknownRequest, State.unknownRequest, if_pos ht, if_pos ht', State.frameAccepted_setReceiver]

/-- A port that takes bytes takes a frame with this body (R155, R158). -/
abbrev State.TakesBody (s : State) (p : PortId) (body : List Byte) : Prop :=
  (s.ports[p]).lrst = false ∧ 4 ≤ body.length ∧ body.length ≤ 40

theorem State.acceptBody_setReceiver {s : State} {p : PortId} {body : List Byte} (hb : s.TakesBody p body)
    (r : Receiver) (g : Option Nat) : (s.setReceiver p r g).acceptBody p body = s.acceptBody p body := by
  have ht : s.takesFrame ⟨p, body.getD 0 0, body.getD 1 0, body.length⟩ = true := State.takesFrame_iff.mpr hb
  rw [State.acceptBody, State.acceptBody]
  rcases decodeRequest_cases p body with ⟨k, hk⟩ | ⟨code, -, hk⟩
  · rw [runRequest_eq hk, runRequest_eq hk]; exact State.request_setReceiver ht r g _ _
  · rw [hk]; exact State.unknownRequest_setReceiver ht r g _

/-! ## The receiver after a frame -/

/-- Two port records agree on the receive line. -/
structure SameLine (x y : Port) : Prop where
  receiver : y.receiver = x.receiver
  gapTimer : y.gapTimer = x.gapTimer
  lrst : y.lrst = x.lrst

theorem SameLine.refl (x : Port) : SameLine x x := ⟨rfl, rfl, rfl⟩

theorem SameLine.trans {x y z : Port} (h : SameLine x y) (g : SameLine y z) : SameLine x z :=
  ⟨g.receiver.trans h.receiver, g.gapTimer.trans h.gapTimer, g.lrst.trans h.lrst⟩

theorem Port.send_sameLine (x : Port) (r : Response) : SameLine x (x.send r) := by
  rw [Port.send]; split <;> exact ⟨rfl, rfl, rfl⟩

theorem State.send_sameLine (s : State) (p : PortId) (r : Response) : SameLine s.ports[p] (s.send p r).ports[p] := by
  rw [State.send_port]; exact Port.send_sameLine _ _

theorem State.answer_sameLine (s : State) (p : PortId) (tag : Byte) (k : Half) (st : Status) (rs : Results) :
    SameLine s.ports[p] (s.answer p tag k st rs).ports[p] := by
  rw [State.answer_ports, get_set_self]
  exact (Port.send_sameLine s.ports[p] ⟨tag, st, false, k, rs⟩).trans ⟨rfl, rfl, rfl⟩

/-- The execution of a request does not touch the receive line of its port. -/
theorem Effect.sameLine {e : PortId} {v : State} {k : Kind} {o : State × Reply} (he : Effect e v k o)
    (ho : Opened v e k) : SameLine v.ports[e] o.1.ports[e] := by
  by_cases hk : k ∈ tableKinds
  · have hopen : (v.sessions[e]).isOpen = true :=
      ho.resolve_right (by rintro (rfl | rfl | rfl) <;> simp [tableKinds] at hk)
    rw [(portsFrameLaw v.ports).effect he hk hopen rfl]; exact .refl _
  cases he with
  | unchanged => exact .refl _
  | openSession n r hc => exact .refl _
  | closeSession r => rw [State.teardown_eq, State.tornDown_ports, get_set_self]; exact ⟨rfl, rfl, rfl⟩
  | hubReset r hh => rw [State.hubReset_port_self]; exact .refl _
  | await tag timeout hq =>
    rw [State.setSession_ports, State.setPort_port]; exact ⟨rfl, rfl, rfl⟩
  | cancel a r ha =>
    rw [State.stopAwait_port]; exact (State.send_sameLine v e _).trans ⟨rfl, rfl, rfl⟩
  | portStatus r => rw [State.setPort_port]; exact ⟨rfl, rfl, rfl⟩
  | _ => exact absurd (by simp [tableKinds]) hk

/-- The receiver is in HUNT after a frame that is taken (R159). -/
theorem Handled.sameLine {s t : State} {h : Head} {code : Half} {executes : State → Prop}
    (ht : Handled s h code executes t) (htake : s.takesFrame h = true)
    (hx : executes t → SameLine (s.frameAccepted h.port).ports[h.port] t.ports[h.port]) :
    SameLine (s.frameAccepted h.port).ports[h.port] t.ports[h.port] := by
  cases ht with
  | discarded hn => rw [htake] at hn; cases hn
  | overrun => rw [State.setPort_port, State.frameAccepted_port]; exact ⟨rfl, rfl, rfl⟩
  | replayed r => exact State.send_sameLine _ _ _
  | busy => exact State.send_sameLine _ _ _
  | declined => exact State.answer_sameLine _ _ _ _ _ _
  | executed _ he => exact hx he

theorem State.request_sameLine {s : State} {i : Instr} {k : Kind} {h : Head} (hi : i.request? = some (k, h))
    (ht : s.takesFrame h = true) :
    SameLine (s.frameAccepted h.port).ports[h.port] (s.request h k (requestAct i)).ports[h.port] := by
  refine (State.request_handled s h k (requestAct i)).sameLine ht fun ⟨hadm, he⟩ => ?_
  obtain ⟨-, -, -, -, -, hpass⟩ := hadm
  have hopen : Opened (s.frameAccepted h.port) h.port k := by
    rw [Opened, (PortsOnly.frameAccepted s h.port).isOpen]
    by_cases ho : (s.sessions[h.port]).isOpen = true
    · exact .inl ho
    · rw [if_neg ho] at hpass; exact .inr hpass
  have heff := (requestAct_effect hi (s.frameAccepted h.port)).sameLine hopen
  rw [he, State.execute]
  split
  · rename_i t st r hact
    rw [hact] at heff
    exact heff.trans (State.answer_sameLine _ _ _ _ _ _)
  · rename_i t hact
    rw [hact] at heff; exact heff

/-- A port reads bytes from HUNT. -/
abbrev State.Hunting (s : State) (p : PortId) : Prop := (s.ports[p]).receiver = .hunt ∧ (s.ports[p]).lrst = false

theorem State.Hunting.of_sameLine {s t : State} {p : PortId} (h : SameLine (s.frameAccepted p).ports[p] t.ports[p])
    (hl : (s.ports[p]).lrst = false) : t.Hunting p := by
  rw [State.frameAccepted_port] at h
  exact ⟨h.receiver, h.lrst.trans hl⟩

theorem State.acceptBody_hunting {s : State} {p : PortId} {body : List Byte} (hb : s.TakesBody p body) :
    (s.acceptBody p body).Hunting p := by
  have ht : s.takesFrame ⟨p, body.getD 0 0, body.getD 1 0, body.length⟩ = true := State.takesFrame_iff.mpr hb
  refine .of_sameLine (s := s) ?_ hb.1
  rw [State.acceptBody]
  rcases decodeRequest_cases p body with ⟨k, hk⟩ | ⟨code, -, hk⟩
  · rw [runRequest_eq hk]; exact State.request_sameLine hk ht
  · rw [hk]
    exact (State.unknownRequest_handled s _ code).sameLine ht fun hf => hf.elim

theorem State.framing_hunting {s : State} {p : PortId} (hl : (s.ports[p]).lrst = false) : (s.framing p).Hunting p := by
  rw [State.Hunting, State.framing, State.setPort_port]; exact ⟨rfl, hl⟩

theorem State.crcError_hunting {s : State} {p : PortId} (hl : (s.ports[p]).lrst = false) :
    (s.crcError p).Hunting p := by
  rw [State.Hunting, State.crcError, State.setPort_port]; exact ⟨rfl, hl⟩

/-! ## Bytes one by one -/

/-- The bytes of a list taken from the receive line of a port. -/
def State.takeAll (s : State) (p : PortId) (bytes : List Byte) : State := bytes.foldl (fun t b => t.takeByte p b) s

@[simp] theorem State.takeAll_nil (s : State) (p : PortId) : s.takeAll p [] = s := rfl
@[simp] theorem State.takeAll_cons (s : State) (p : PortId) (b : Byte) (l : List Byte) :
    s.takeAll p (b :: l) = (s.takeByte p b).takeAll p l := rfl
@[simp] theorem State.takeAll_append (s : State) (p : PortId) (l m : List Byte) :
    s.takeAll p (l ++ m) = (s.takeAll p l).takeAll p m := List.foldl_append

/-- A port with a frame under assembly. -/
abbrev State.assembling (s : State) (p : PortId) (r : Receiver) : State := s.setReceiver p r (some Config.frameGap)

section
variable {s : State} {p : PortId}

theorem State.takeByte_of_hunt (h : s.Hunting p) (b : Byte) :
    s.takeByte p b = if b = Config.syncByte then s.assembling p .length else s := by
  rw [State.takeByte, if_neg (by rw [h.2]; exact Bool.false_ne_true), h.1]

variable (hl : (s.ports[p]).lrst = false)
include hl

theorem State.takeByte_length (b : Byte) :
    (s.assembling p .length).takeByte p b =
      if b.toNat < Config.minBody ∨ Config.maxBody < b.toNat then s.framing p
      else s.assembling p (.body b.toNat []) := by
  simp only [State.takeByte, State.setReceiver_port, hl, Bool.false_eq_true, if_false, State.framing_setReceiver,
    State.setReceiver_setReceiver]

theorem State.takeByte_body (n : Nat) (taken : List Byte) (b : Byte) :
    (s.assembling p (.body n taken)).takeByte p b =
      s.assembling p (if n ≤ taken.length + 1 then .check (taken ++ [b]) none else .body n (taken ++ [b])) := by
  simp only [State.takeByte, State.setReceiver_port, hl, Bool.false_eq_true, if_false, State.setReceiver_setReceiver]

theorem State.takeByte_first_crc (body : List Byte) (b : Byte) :
    (s.assembling p (.check body none)).takeByte p b = s.assembling p (.check body (some b)) := by
  simp only [State.takeByte, State.setReceiver_port, hl, Bool.false_eq_true, if_false, State.setReceiver_setReceiver]

/-- The second CRC byte completes the frame, whose assembly is nothing to its handling (R159, R160). -/
theorem State.takeByte_second_crc {body : List Byte} (hb : 4 ≤ body.length ∧ body.length ≤ 40) (hi b : Byte) :
    (s.assembling p (.check body (some hi))).takeByte p b =
      if frameCrc body = bytesHalf hi b then s.acceptBody p body else s.crcFailed p body (bytesHalf hi b) := by
  simp only [State.takeByte, State.setReceiver_port, hl, Bool.false_eq_true, if_false,
    State.acceptBody_setReceiver (s := s) (p := p) (body := body) ⟨hl, hb⟩, State.crcFailed, State.crcError_setReceiver]

/-- Bytes of a body join the frame under assembly until the body is whole (R158). -/
theorem State.takeAll_body {n : Nat} (l : List Byte) (taken : List Byte) (ht : taken.length < n)
    (hn : taken.length + l.length ≤ n) :
    (s.assembling p (.body n taken)).takeAll p l =
      s.assembling p
        (if taken.length + l.length < n then .body n (taken ++ l) else .check (taken ++ l) none) := by
  induction l generalizing taken with
  | nil => simp [ht]
  | cons b l ih =>
    rw [State.takeAll_cons, State.takeByte_body hl]
    simp only [List.length_cons] at hn ⊢
    have hlen : (taken ++ [b]).length = taken.length + 1 := by simp
    by_cases hd : n ≤ taken.length + 1
    · obtain rfl : l = [] := List.length_eq_zero_iff.mp (by omega)
      rw [if_pos hd, State.takeAll_nil, if_neg (by simp only [List.length_nil]; omega)]
    · rw [if_neg hd, ih (taken ++ [b]) (by omega) (by omega), hlen, List.append_assoc, List.singleton_append,
        show taken.length + 1 + l.length = taken.length + (l.length + 1) by omega]

/-- The bytes of a frame from its length byte on, up to its body. -/
theorem State.takeAll_length {n : Byte} (hn : 4 ≤ n.toNat ∧ n.toNat ≤ 40) (l : List Byte) (hlen : l.length ≤ n.toNat) :
    (s.assembling p .length).takeAll p (n :: l) =
      s.assembling p (if l.length < n.toNat then .body n.toNat l else .check l none) := by
  have hok : ¬ (n.toNat < Config.minBody ∨ Config.maxBody < n.toNat) := by
    simp only [Config.minBody, Config.maxBody]; omega
  rw [State.takeAll_cons, State.takeByte_length hl, if_neg hok,
    State.takeAll_body hl l [] (by simp only [List.length_nil]; omega) (by simpa using hlen)]
  simp only [List.length_nil, Nat.zero_add, List.nil_append]

theorem State.takeAll_first_crc {n : Byte} (hn : 4 ≤ n.toNat ∧ n.toNat ≤ 40) {body : List Byte}
    (hlen : body.length = n.toNat) (hi : Byte) :
    (s.assembling p .length).takeAll p (n :: body ++ [hi]) = s.assembling p (.check body (some hi)) := by
  rw [State.takeAll_append, State.takeAll_length hl hn body (by omega), if_neg (by omega), State.takeAll_cons,
    State.takeByte_first_crc hl, State.takeAll_nil]

/-- A whole frame after its sync byte: accepted with its CRC, a CRC failure with another (R159, R160). -/
theorem State.takeAll_frame {n : Byte} (hn : 4 ≤ n.toNat ∧ n.toNat ≤ 40) {body : List Byte}
    (hlen : body.length = n.toNat) (hi lo : Byte) :
    (s.assembling p .length).takeAll p (n :: body ++ [hi, lo]) =
      if frameCrc body = bytesHalf hi lo then s.acceptBody p body else s.crcFailed p body (bytesHalf hi lo) := by
  have hsplit : n :: body ++ [hi, lo] = (n :: body ++ [hi]) ++ [lo] := by simp
  rw [hsplit, State.takeAll_append, State.takeAll_first_crc hl hn hlen, State.takeAll_cons, State.takeAll_nil,
    State.takeByte_second_crc hl (by omega)]

end

end Sys2Proof.Machine
end

section
/-! SUPPORT. The examination of a failed frame is the taking of its bytes; the statements about the receiver settled. -/

namespace Sys2Proof.Machine

/-! ## The examination of a failed frame (R160) -/

/-- The bytes that a frame found has covered are skipped. -/
theorem examine_drop (p : PortId) (n : Nat) (bytes : List Byte) (s : State) :
    examine p n bytes s = examine p 0 (bytes.drop n) s := by
  induction n generalizing bytes with
  | zero => rfl
  | succ n ih =>
    cases bytes with
    | nil => rfl
    | cons b rest => exact ih rest

section
variable {n : Byte} (hn : 4 ≤ n.toNat ∧ n.toNat ≤ 40) {rest : List Byte}
include hn

theorem frameAt_accepted :
    frameAt (n :: rest) =
      match rest.drop n.toNat with
      | [] => .partialFrame (if rest.length < n.toNat then .body n.toNat rest else .check rest none)
      | [hi] => .partialFrame (.check (rest.take n.toNat) (some hi))
      | hi :: lo :: _ => .whole (rest.take n.toNat) (bytesHalf hi lo) := by
  have hok : ¬ (n.toNat < Config.minBody ∨ Config.maxBody < n.toNat) := by
    simp only [Config.minBody, Config.maxBody]; omega
  rw [frameAt, if_neg hok] <;> rfl

theorem frameAt_of_short (h : rest.length ≤ n.toNat) :
    frameAt (n :: rest) = .partialFrame (if rest.length < n.toNat then .body n.toNat rest else .check rest none) := by
  rw [frameAt_accepted hn, List.drop_eq_nil_iff.mpr h]

theorem frameAt_of_first_crc {body : List Byte} (hlen : body.length = n.toNat) (hi : Byte) :
    frameAt (n :: (body ++ [hi])) = .partialFrame (.check body (some hi)) := by
  rw [frameAt_accepted hn, ← hlen, List.drop_left, List.take_left]

theorem frameAt_of_whole {body : List Byte} (hlen : body.length = n.toNat) (hi lo : Byte) (more : List Byte) :
    frameAt (n :: (body ++ hi :: lo :: more)) = .whole body (bytesHalf hi lo) := by
  rw [frameAt_accepted hn, ← hlen, List.drop_left, List.take_left]

end

/-- The bytes after the sync byte of a frame that was found, as the command for its failure carries them. -/
theorem afterSync_eq {n : Byte} {body : List Byte} (hlen : body.length = n.toNat) (hi lo : Byte) :
    afterSync body (bytesHalf hi lo) = n :: body ++ [hi, lo] := by
  rw [afterSync, halfBytes_bytesHalf, lengthByte, hlen, BitVec.ofNat_toNat, BitVec.setWidth_eq]

/-- The examination of bytes from HUNT is the taking of them one by one (R160). -/
theorem examine_eq_takeAll (p : PortId) (bytes : List Byte) (s : State) (hs : s.Hunting p) :
    examine p 0 bytes s = s.takeAll p bytes := by
  induction hlen : bytes.length using Nat.strong_induction_on generalizing bytes s with
  | _ len ih =>
  subst hlen
  have hl := hs.2
  cases bytes with
  | nil => rfl
  | cons b rest =>
  rw [State.takeAll_cons, State.takeByte_of_hunt hs, examine]
  by_cases hb : b = Config.syncByte
  swap
  · rw [if_neg hb, if_neg hb]; exact ih _ (by simp) rest s hs rfl
  rw [if_pos hb, if_pos hb]
  cases rest with
  | nil => rfl
  | cons n rest =>
  by_cases hbad : n.toNat < Config.minBody ∨ Config.maxBody < n.toNat
  · have hf : frameAt (n :: rest) = .badLength := by rw [frameAt, if_pos hbad]
    rw [hf, State.takeAll_cons, State.takeByte_length hl, if_pos hbad]
    dsimp only
    rw [examine_drop]
    exact ih _ (by simp) rest _ (State.framing_hunting hl) rfl
  have hn : 4 ≤ n.toNat ∧ n.toNat ≤ 40 := by simp only [Config.minBody, Config.maxBody] at hbad; omega
  by_cases hshort : rest.length ≤ n.toNat
  · rw [frameAt_of_short hn hshort, State.takeAll_length hl hn rest hshort]
  obtain ⟨body, tail, hblen, rfl⟩ : ∃ body tail, body.length = n.toNat ∧ rest = body ++ tail :=
    ⟨rest.take n.toNat, rest.drop n.toNat, by rw [List.length_take]; omega, (List.take_append_drop _ _).symm⟩
  match tail with
  | [] => simp [hblen] at hshort
  | [hi] =>
    rw [frameAt_of_first_crc hn hblen, ← List.cons_append, State.takeAll_first_crc hl hn hblen]
  | hi :: lo :: more =>
    have hsplit : n :: (body ++ hi :: lo :: more) = (n :: body ++ [hi, lo]) ++ more := by simp
    rw [frameAt_of_whole hn hblen, hsplit, State.takeAll_append, State.takeAll_frame hl hn hblen]
    dsimp only
    by_cases hc : frameCrc body = bytesHalf hi lo
    · rw [if_pos hc, if_pos hc, examine_drop, List.drop_left' (by simp)]
      exact ih _ (by simp; omega) more _ (State.acceptBody_hunting ⟨hl, by omega⟩) rfl
    · rw [if_neg hc, if_neg hc, State.crcFailed, afterSync_eq hblen,
        ih _ (by simp) (n :: body ++ [hi, lo] ++ more) _ (State.crcError_hunting hl) rfl, State.takeAll_append,
        ih _ (by simp) (n :: body ++ [hi, lo]) _ (State.crcError_hunting hl) rfl]

/-! ## The statements about the receiver -/

theorem satInc_eq_oneMore (n : Half) : satInc n = oneMore n := satInc_eq n

/-- A framing error counted (R158, R161, R162). -/
theorem State.framing_eq (s : State) (p : PortId) :
    s.framing p = { s with
      ports := s.ports.set p { (s.ports[p]).discarded with framingErrors := oneMore (s.ports[p]).framingErrors } } := by
  rw [State.framing, satInc_eq_oneMore]; rfl

/-- A CRC failure counted (R160, R162). -/
theorem State.crcError_eq (s : State) (p : PortId) :
    s.crcError p = { s with
      ports := s.ports.set p { (s.ports[p]).discarded with crcErrors := oneMore (s.ports[p]).crcErrors } } := by
  rw [State.crcError, satInc_eq_oneMore]; rfl

theorem takesFrame_of_body {s : State} {p : PortId} {body : List Byte} (hb : s.TakesBody p body) :
    s.takesFrame ⟨p, 0, 0, body.length⟩ = true := State.takesFrame_iff.mpr hb

theorem exec_crcFailure {s : State} {p : PortId} {body : List Byte} {crc : Half} (hb : s.TakesBody p body)
    (hc : frameCrc body ≠ crc) :
    exec (.crcFailure p body crc) s = .next (s.happening fun t => t.crcFailed p body crc) := by
  have h : exec (.crcFailure p body crc) s = .next (s.notify
      (if s.takesFrame ⟨p, 0, 0, body.length⟩ ∧ frameCrc body ≠ crc then s.crcFailed p body crc else s)) := rfl
  rw [h, if_pos ⟨takesFrame_of_body hb, hc⟩]; rfl

/-- The command that a body spells is the happening of its frame (R159). -/
theorem exec_decodeRequest (p : PortId) (body : List Byte) (s : State) :
    exec (decodeRequest p body) s = .next (s.happening fun t => t.acceptBody p body) := by
  rcases decodeRequest_cases p body with ⟨k, hk⟩ | ⟨code, hcode, hk⟩
  · exact exec_request_run hk s
  · have hrun : ∀ t : State, t.acceptBody p body =
        t.unknownRequest ⟨p, body.getD 0 0, body.getD 1 0, body.length⟩ code := fun t => by
      rw [State.acceptBody, hk]; rfl
    have hnone : (Kind.ofCode code).isNone = true := by rw [hcode]; rfl
    rw [hk, State.happening, hrun]
    have h : exec (.unknownRequestKind ⟨p, body.getD 0 0, body.getD 1 0, body.length⟩ code) s =
        .next (s.notify (if (Kind.ofCode code).isNone = true then
          s.unknownRequest ⟨p, body.getD 0 0, body.getD 1 0, body.length⟩ code else s)) := rfl
    rw [h, if_pos hnone]

/-- Settles O56: the examination is the taking of the bytes one by one from HUNT. -/
theorem crcFailureTakesItsBytesAgain : Obligations.CrcFailureTakesItsBytesAgain := by
  intro p body crc s hl h4 h40 hc
  dsimp only
  rw [exec_crcFailure ⟨hl, h4, h40⟩ hc, ← State.crcError_eq, State.happening, State.notify_eq_awaitsEnded,
    State.crcFailed, examine_eq_takeAll p _ _ (State.crcError_hunting hl)]
  rfl

/-- A byte taken whose effect is at the port alone ends no AWAIT. -/
theorem exec_frameByteTaken {p : PortId} {b : Byte} {s t : State} (ht : s.takeByte p b = t) (hq : t.queues = s.queues) :
    exec (.frameByteTaken p b) s = .next t := by
  have h : exec (.frameByteTaken p b) s = .next (s.happening fun u => u.takeByte p b) := rfl
  rw [h, State.happening_of_queues (f := fun u => u.takeByte p b) (by rw [ht]; exact hq)]
  exact congrArg _ ht

/-- Settles O55, by the two occasions of a framing error. -/
theorem framingErrorsDiscardTheFrame : Obligations.FramingErrorsDiscardTheFrame := by
  intro p n s
  dsimp only
  rw [← State.framing_eq]
  constructor
  · have h : exec (.framingError p n) s = .next (if (s.ports[p]).lrst = false ∧
        (n.toNat < Config.minBody ∨ Config.maxBody < n.toNat) then s.framing p else s) := rfl
    have hiff : (n.toNat < Config.minBody ∨ Config.maxBody < n.toNat) ↔ (n.toNat ≤ 3 ∨ 41 ≤ n.toNat) := by
      simp only [Config.minBody, Config.maxBody]; omega
    rw [h]
    simp only [hiff]
    split <;> rfl
  · have h : exec (.frameGapTimeout p) s = .next (if (s.ports[p]).gapTimer = some 0 then s.framing p else s) := rfl
    rw [h]
    split <;> rfl

/-- Settles O54, by the state of the receiver. -/
theorem receiverTakesBytes : Obligations.ReceiverTakesBytes := by
  intro p b s hr
  dsimp only
  by_cases hl : (s.ports[p]).lrst = true
  · rw [if_pos hl]
    exact exec_frameByteTaken (by rw [State.takeByte, if_pos hl]) rfl
  rw [if_neg hl, ← State.framing_eq]
  have hgo : ∀ r, s.takeByte p b = s.assembling p r → exec (.frameByteTaken p b) s =
      .next { s with ports := s.ports.set p { s.ports[p] with receiver := r, gapTimer := some 5000 } } :=
    fun r h => exec_frameByteTaken h rfl
  cases hrec : (s.ports[p]).receiver with
  | hunt =>
    have ht : s.takeByte p b = if b = Config.syncByte then s.assembling p .length else s := by
      rw [State.takeByte, if_neg hl, hrec]
    dsimp only
    by_cases hb : b = 0xA5
    · rw [if_pos hb]; exact hgo _ (by rw [ht, if_pos (show b = Config.syncByte from hb)])
    · rw [if_neg hb]; exact exec_frameByteTaken (by rw [ht, if_neg (show ¬ b = Config.syncByte from hb)]) rfl
  | length =>
    have ht : s.takeByte p b = if b.toNat < Config.minBody ∨ Config.maxBody < b.toNat then s.framing p
        else s.assembling p (.body b.toNat []) := by
      rw [State.takeByte, if_neg hl, hrec]
    have hbad : (b.toNat < Config.minBody ∨ Config.maxBody < b.toNat) ↔ ¬ (4 ≤ b.toNat ∧ b.toNat ≤ 40) := by
      simp only [Config.minBody, Config.maxBody]; omega
    dsimp only
    by_cases hb : 4 ≤ b.toNat ∧ b.toNat ≤ 40
    · rw [if_pos hb]; exact hgo _ (by rw [ht, if_neg fun h => hbad.mp h hb])
    · rw [if_neg hb]; exact exec_frameByteTaken (by rw [ht, if_pos (hbad.mpr hb)]) rfl
  | body n taken =>
    have ht : s.takeByte p b =
        s.assembling p (if n ≤ taken.length + 1 then .check (taken ++ [b]) none else .body n (taken ++ [b])) := by
      rw [State.takeByte, if_neg hl, hrec]
    rw [hrec] at hr
    simp only [Receiver.lawful, Bool.and_eq_true, decide_eq_true_eq] at hr
    dsimp only
    by_cases hb : taken.length + 1 = n
    · rw [if_pos hb]; exact hgo _ (by rw [ht, if_pos (by omega)])
    · rw [if_neg hb]; exact hgo _ (by rw [ht, if_neg (by omega)])
  | check body high =>
    rw [hrec] at hr
    have hb : s.TakesBody p body := ⟨by simpa using hl, of_decide_eq_true hr⟩
    cases high with
    | none => exact hgo _ (by rw [State.takeByte, if_neg hl, hrec])
    | some hi =>
      have ht : s.takeByte p b = if frameCrc body = bytesHalf hi b then s.acceptBody p body
          else s.crcFailed p body (bytesHalf hi b) := by
        rw [State.takeByte, if_neg hl, hrec]
      have he : exec (.frameByteTaken p b) s = .next (s.notify (s.takeByte p b)) := rfl
      dsimp only
      by_cases hc : frameCrc body = bytesHalf hi b
      · rw [if_pos hc, exec_decodeRequest, he, ht, if_pos hc]; rfl
      · rw [if_neg hc, exec_crcFailure hb hc, he, ht, if_neg hc]; rfl

end Sys2Proof.Machine
end

section
/-! SUPPORT. Request bodies and request commands determine each other (R163, R179, R181). -/

namespace Sys2Proof

theorem extract_append_high {n : Nat} (x : BitVec n) (y : Byte) : (x ++ y).extractLsb' 8 n = x := by
  ext i hi
  simp only [BitVec.getElem_extractLsb', BitVec.getLsbD_append, show ¬ 8 + i < 8 by omega, if_false,
    show 8 + i - 8 = i by omega, BitVec.getLsbD_eq_getElem hi]

theorem extract_append_low {n : Nat} (x : BitVec n) (y : Byte) : (x ++ y).extractLsb' 0 8 = y := by
  ext i hi
  simp only [BitVec.getElem_extractLsb', BitVec.getLsbD_append, Nat.zero_add, hi, if_true, BitVec.getLsbD_eq_getElem hi]

theorem extract_append_above {n : Nat} (x : BitVec n) (y : Byte) (k : Nat) (m : Nat) :
    (x ++ y).extractLsb' (k + 8) m = x.extractLsb' k m := by
  ext i hi
  simp only [BitVec.getElem_extractLsb', BitVec.getLsbD_append, show ¬ k + 8 + i < 8 by omega, if_false,
    show k + 8 + i - 8 = k + i by omega]

@[simp] theorem wordBytes_bytesWord (a b c d : Byte) : wordBytes (bytesWord a b c d) = [a, b, c, d] := by
  have h3 : (bytesWord a b c d).extractLsb' 24 8 = a := by
    rw [bytesWord, extract_append_above _ d 16, extract_append_above _ c 8]; exact extract_append_high a b
  have h2 : (bytesWord a b c d).extractLsb' 16 8 = b := by
    rw [bytesWord, extract_append_above _ d 8, extract_append_above _ c 0]; exact extract_append_low a b
  have h1 : (bytesWord a b c d).extractLsb' 8 8 = c := by
    rw [bytesWord, extract_append_above _ d 0]; exact extract_append_low _ c
  have h0 : (bytesWord a b c d).extractLsb' 0 8 = d := extract_append_low _ d
  rw [wordBytes, h3, h2, h1, h0]

/-- A list is the list of its elements. -/
theorem map_getD_range (l : List Byte) : (List.range l.length).map (fun n => l.getD n 0) = l := by
  refine List.ext_getElem (by simp) fun n h1 h2 => ?_
  simp [List.getElem?_eq_getElem h2]

/-- The body of a request command, kind by kind: each field is read where it was written. -/
theorem decodeRequest_encodeRequest {i : Instr} {k : Kind} {h : Head} {body : List Byte}
    (hi : i.request? = some (k, h)) (hlen : h.len = k.bodyLen) (he : encodeRequest i = some body) :
    body.length = k.bodyLen ∧ decodeRequest h.port body = i := by
  obtain ⟨p, tag, epoch, len⟩ := h
  cases i <;> cases hi <;> cases he <;> cases hlen
  all_goals
    refine ⟨rfl, ?_⟩
    simp only [decodeRequest, headBytes, halfBytes, wordBytes, List.cons_append, List.nil_append, List.getD_cons_zero,
      List.getD_cons_succ, bytesHalf_bytes, bytesWord_bytes, Kind.ofCode_code] <;> rfl

/-- The body of the length that its kind fixes is the body of the command it spells. -/
theorem encodeRequest_decodeRequest {p : PortId} {body : List Byte} {k : Kind}
    (hk : Kind.ofCode (bytesHalf (body.getD 2 0) (body.getD 3 0)) = some k) (hlen : body.length = k.bodyLen) :
    (decodeRequest p body).request?.map (·.1) = some k ∧ encodeRequest (decodeRequest p body) = some body := by
  have hcode := Kind.code_of_ofCode hk
  have hbody := map_getD_range body
  rw [hlen] at hbody
  cases k
  all_goals
    simp only [decodeRequest, hk]
    refine ⟨rfl, ?_⟩
    simp only [encodeRequest, headBytes, hcode, halfBytes_bytesHalf, wordBytes_bytesWord]
    exact congrArg some hbody

end Sys2Proof

namespace Sys2Proof.Machine

/-- Settles O58, kind by kind in each direction. -/
theorem requestBodiesRoundTrip : Obligations.RequestBodiesRoundTrip :=
  ⟨fun _ _ _ _ hi hlen he => decodeRequest_encodeRequest hi hlen he,
    fun _ _ _ hk hlen => encodeRequest_decodeRequest hk hlen⟩

end Sys2Proof.Machine
end

section
/-! SUPPORT. Whole frames and the order of the checks: the statements settled. -/

namespace Sys2Proof.Machine

/-! ## The frame of a request -/

/-- Bytes that set the receiver alone are happenings that change nothing else. -/
theorem takeBytes_cons_of_queues {p : PortId} {b : Byte} {rest : List Byte} {s t : State} (ht : s.takeByte p b = t)
    (hq : t.queues = s.queues) : takeBytes p (b :: rest) s = takeBytes p rest t := by
  rw [takeBytes, exec_frameByteTaken ht hq]

/-- Bytes of a body, as commands of their own. -/
theorem takeBytes_body {p : PortId} {s : State} (hl : (s.ports[p]).lrst = false) {n : Nat} (l : List Byte)
    (taken rest : List Byte) (hne : l ≠ []) (hn : taken.length + l.length = n) :
    takeBytes p (l ++ rest) (s.assembling p (.body n taken)) =
      takeBytes p rest (s.assembling p (.check (taken ++ l) none)) := by
  induction l generalizing taken with
  | nil => exact absurd rfl hne
  | cons b l ih =>
    rw [List.length_cons] at hn
    rw [List.cons_append, takeBytes_cons_of_queues (State.takeByte_body hl n taken b) rfl]
    by_cases hd : l = []
    · subst hd
      rw [if_pos (by simp only [List.length_nil] at hn; omega), List.nil_append]
    · have hpos := List.length_pos_iff.mpr hd
      rw [if_neg (by omega), ih (taken ++ [b]) hd (by simp only [List.length_append, List.length_singleton]; omega),
        List.append_assoc, List.singleton_append]

/-- A frame with its CRC, taken byte by byte from HUNT, is the happening of its body (R158, R159). -/
theorem takeBytes_frame {p : PortId} {body : List Byte} {s : State} (hs : s.Hunting p)
    (hb : 4 ≤ body.length ∧ body.length ≤ 40) :
    takeBytes p (frameBytes body) s = .next (s.happening fun t => t.acceptBody p body) := by
  have hl := hs.2
  have hn : (lengthByte body).toNat = body.length := by
    rw [lengthByte, BitVec.toNat_ofNat, Nat.mod_eq_of_lt (by omega)]
  have hok : ¬ ((lengthByte body).toNat < Config.minBody ∨ Config.maxBody < (lengthByte body).toNat) := by
    rw [hn]; simp only [Config.minBody, Config.maxBody]; omega
  have hcrc : frameCrc body =
      bytesHalf ((frameCrc body).extractLsb' 8 8) ((frameCrc body).extractLsb' 0 8) := (bytesHalf_bytes _).symm
  have hsync : s.takeByte p Config.syncByte = s.assembling p .length := by
    rw [State.takeByte_of_hunt hs, if_pos rfl]
  have hlength : (s.assembling p .length).takeByte p (lengthByte body) = s.assembling p (.body body.length []) := by
    rw [State.takeByte_length hl, if_neg hok, hn]
  rw [frameBytes, afterSync, takeBytes_cons_of_queues hsync rfl, List.cons_append,
    takeBytes_cons_of_queues hlength rfl,
    takeBytes_body hl body [] _ (List.ne_nil_of_length_pos (by omega)) (by simp), List.nil_append, halfBytes,
    takeBytes_cons_of_queues (State.takeByte_first_crc hl body _) rfl]
  have hlast : exec (.frameByteTaken p ((frameCrc body).extractLsb' 0 8))
      (s.assembling p (.check body (some ((frameCrc body).extractLsb' 8 8)))) =
      .next (s.notify (s.acceptBody p body)) := by
    have h := State.takeByte_second_crc hl hb ((frameCrc body).extractLsb' 8 8) ((frameCrc body).extractLsb' 0 8)
    rw [if_pos hcrc] at h
    rw [← h]; rfl
  rw [takeBytes, hlast]; rfl

/-- Settles O59: a frame's bytes are the happening of its body, and the body is the request. -/
theorem frameBytesRunTheRequest : Obligations.FrameBytesRunTheRequest := by
  intro i k h body s hi hlen he hl hr
  obtain ⟨hblen, hdec⟩ := decodeRequest_encodeRequest hi hlen he
  have hk := bodyLen_accepted k
  rw [takeBytes_frame ⟨hr, hl⟩ (by rw [hblen]; exact hk), ← exec_decodeRequest, hdec]

/-! ## The order of the checks -/

/-- A frame that answers without reaching its block is a happening that stores nothing. -/
theorem exec_of_request {i : Instr} {k : Kind} {h : Head} {s t : State} (hi : i.request? = some (k, h))
    (ht : s.request h k (requestAct i) = t) (hq : t.queues = s.queues) : exec i s = .next t := by
  rw [exec_request hi, State.happening_of_queues (f := fun u => u.request h k (requestAct i)) (by rw [ht]; exact hq)]
  exact congrArg _ ht

theorem exec_of_unknownRequest {h : Head} {code : Half} {s t : State} (hc : Kind.ofCode code = none)
    (ht : s.unknownRequest h code = t) (hq : t.queues = s.queues) : exec (.unknownRequestKind h code) s = .next t := by
  have hnone : (Kind.ofCode code).isNone = true := by rw [hc]; rfl
  have he : exec (.unknownRequestKind h code) s =
      .next (s.happening fun u => if (Kind.ofCode code).isNone then u.unknownRequest h code else u) := rfl
  simp only [hnone, if_true] at he
  rw [he, State.happening_of_queues (f := fun u => u.unknownRequest h code) (by rw [ht]; exact hq)]
  exact congrArg _ ht

/-- A frame that finds 3 responses waiting is counted as an overrun and not answered (R165). -/
theorem State.request_overrun {s : State} {h : Head} (k : Kind) (act : State → State × Reply)
    (ht : s.takesFrame h = true)
    (hw : 3 ≤ (s.ports[h.port]).waiting.length) :
    s.request h k act = (s.frameAccepted h.port).setPort h.port
      { (s.frameAccepted h.port).ports[h.port] with overruns := oneMore (s.ports[h.port]).overruns } := by
  rw [State.request, if_pos ht, State.admitKnown]
  simp only [State.frameAccepted_port]
  rw [if_pos (show Config.overrunAt ≤ _ from hw), satInc_eq_oneMore]

/-- A frame whose tag is the cached one is answered by the replay of the cached response (R166, R174). -/
theorem State.request_replayed {s : State} {h : Head} (k : Kind) (act : State → State × Reply)
    (ht : s.takesFrame h = true) (hw : (s.ports[h.port]).waiting.length ≤ 2) {r : Response}
    (hr : (s.ports[h.port]).cache = some r) (htag : r.tag = h.tag) :
    s.request h k act = (s.frameAccepted h.port).send h.port { r with replay := true } := by
  have hreplay : ({ s.ports[h.port] with receiver := .hunt, gapTimer := none } : Port).replayOf h.tag = some r :=
    Port.replayOf_eq_some.mpr ⟨hr, htag⟩
  rw [State.request, if_pos ht, State.admitKnown]
  simp only [State.frameAccepted_port, hreplay]
  rw [if_neg (by simp only [Config.overrunAt]; omega)]

section Fresh
variable {s : State} {h : Head} (k : Kind) (act : State → State × Reply) (ht : s.takesFrame h = true)
  (hw : (s.ports[h.port]).waiting.length ≤ 2) (hc : ∀ r ∈ (s.ports[h.port]).cache, r.tag ≠ h.tag)
include ht hw hc

/-- A frame under a new tag, with room for its answer, is checked for BUSY, its length and its session (R166). -/
theorem State.request_fresh :
    s.request h k act =
      let t := s.frameAccepted h.port
      if (s.ports[h.port]).awaiting.isSome ∧ k ≠ .cancel then t.send h.port ⟨h.tag, .busy, false, k.code, .none⟩
      else if h.len ≠ k.bodyLen then t.answer h.port h.tag k.code .badLength .none
      else
        match ((s.sessions[h.port]).restarted).refusal k h.epoch with
        | some (status, results) => t.answer h.port h.tag k.code status results
        | none => t.execute h k act := by
  have hreplay : ({ s.ports[h.port] with receiver := .hunt, gapTimer := none } : Port).replayOf h.tag = none :=
    Port.replayOf_eq_none.mpr hc
  rw [State.request, if_pos ht, State.admitKnown]
  simp only [State.frameAccepted_port, State.frameAccepted_session, hreplay]
  exact if_neg (by simp only [Config.overrunAt]; omega)

/-- An EXECUTING port is BUSY to every kind but CANCEL. -/
theorem State.request_busy (ha : (s.ports[h.port]).awaiting ≠ none) (hk : k ≠ .cancel) :
    s.request h k act = (s.frameAccepted h.port).send h.port ⟨h.tag, .busy, false, k.code, .none⟩ := by
  rw [State.request_fresh k act ht hw hc]
  exact if_pos ⟨Option.isSome_iff_ne_none.mpr ha, hk⟩

variable (hi : (s.ports[h.port]).awaiting = none ∨ k = .cancel)
include hi

/-- A body of another length than its kind's is refused. -/
theorem State.request_badLength (hn : h.len ≠ k.bodyLen) : s.request h k act = s.refused h k .badLength := by
  have hb : ¬ ((s.ports[h.port]).awaiting.isSome = true ∧ k ≠ .cancel) := by
    rintro ⟨h1, h2⟩; exact hi.elim (Option.isSome_iff_ne_none.mp h1) h2
  rw [State.request_fresh k act ht hw hc]
  exact (if_neg hb).trans (if_pos hn)

/-- A request that its session does not pass is answered with the session's refusal (R139, R140). -/
theorem State.request_sessionRefusal (hn : h.len = k.bodyLen) {status : Status} {results : Results}
    (hr : ((s.sessions[h.port]).restarted).refusal k h.epoch = some (status, results)) :
    s.request h k act = (s.frameAccepted h.port).reply h k status results := by
  have hb : ¬ ((s.ports[h.port]).awaiting.isSome = true ∧ k ≠ .cancel) := by
    rintro ⟨h1, h2⟩; exact hi.elim (Option.isSome_iff_ne_none.mp h1) h2
  rw [State.request_fresh k act ht hw hc]
  simp only [hr]
  exact (if_neg hb).trans (if_neg (not_not.mpr hn))

end Fresh

section Unknown
variable {s : State} {h : Head} (code : Half) (ht : s.takesFrame h = true)
include ht

/-- A frame of unknown kind is counted as an overrun as every frame is. -/
theorem State.unknownRequest_overrun (hw : 3 ≤ (s.ports[h.port]).waiting.length) :
    s.unknownRequest h code = (s.frameAccepted h.port).setPort h.port
      { (s.frameAccepted h.port).ports[h.port] with overruns := oneMore (s.ports[h.port]).overruns } := by
  rw [State.unknownRequest, if_pos ht, State.admitUnknown]
  simp only [State.frameAccepted_port]
  rw [if_pos (show Config.overrunAt ≤ _ from hw), satInc_eq_oneMore]

variable (hw : (s.ports[h.port]).waiting.length ≤ 2)
include hw

/-- A frame of unknown kind is replayed by its tag as every frame is. -/
theorem State.unknownRequest_replayed {r : Response} (hr : (s.ports[h.port]).cache = some r) (htag : r.tag = h.tag) :
    s.unknownRequest h code = (s.frameAccepted h.port).send h.port { r with replay := true } := by
  have hreplay : ({ s.ports[h.port] with receiver := .hunt, gapTimer := none } : Port).replayOf h.tag = some r :=
    Port.replayOf_eq_some.mpr ⟨hr, htag⟩
  rw [State.unknownRequest, if_pos ht, State.admitUnknown]
  simp only [State.frameAccepted_port, hreplay]
  rw [if_neg (by simp only [Config.overrunAt]; omega)]

/-- A fresh frame of unknown kind finds its port BUSY or is a BAD_REQUEST. -/
theorem State.unknownRequest_fresh (hc : ∀ r ∈ (s.ports[h.port]).cache, r.tag ≠ h.tag) :
    s.unknownRequest h code =
      let t := s.frameAccepted h.port
      if (s.ports[h.port]).awaiting.isSome then t.send h.port ⟨h.tag, .busy, false, code, .none⟩
      else t.answer h.port h.tag code .badRequest .none := by
  have hreplay : ({ s.ports[h.port] with receiver := .hunt, gapTimer := none } : Port).replayOf h.tag = none :=
    Port.replayOf_eq_none.mpr hc
  rw [State.unknownRequest, if_pos ht, State.admitUnknown]
  simp only [State.frameAccepted_port, hreplay]
  rw [if_neg (by simp only [Config.overrunAt]; omega)]

end Unknown

/-- The session of a CLOSED port passes OPEN, IDENT and PORT_STATUS alone (R139). -/
theorem Session.refusal_of_closed {x : Session} {k : Kind} {epoch : Byte} (ho : x.isOpen = false)
    (h1 : k ≠ .openSession) (h2 : k ≠ .ident) (h3 : k ≠ .portStatus) :
    x.refusal k epoch = some (.noSession, .closeCause x.cause) := by
  rw [Session.refusal, if_neg (by simp [ho]), if_neg (by simp [h1, h2, h3])]

/-- An OPEN session passes its own epoch, and OPEN with any (R140). -/
theorem Session.refusal_of_epoch {x : Session} {k : Kind} {epoch : Byte} (ho : x.isOpen = true)
    (h1 : k ≠ .openSession) (he : epoch ≠ x.epoch) : x.refusal k epoch = some (.wrongEpoch, .none) := by
  rw [Session.refusal, if_pos ho, if_neg (by simp [h1, he])]

/-- Settles O53: the checks of R166 in their order, for the listed kinds and for the unknown ones. -/
theorem framesAreCheckedInOrder : Obligations.FramesAreCheckedInOrder := by
  intro i h s hi hl h4 h40
  have ht : s.takesFrame h = true := State.takesFrame_iff.mpr ⟨hl, h4, h40⟩
  rcases hi with hi | ⟨unknown, hnone, rfl⟩
  · obtain ⟨⟨k, head⟩, hreq, heq⟩ := Option.map_eq_some_iff.mp hi
    cases (show head = h from heq)
    intro x y t kind code
    have hkind : kind = some k := by simp only [kind, hreq, Option.map_some]
    have hcode : code = k.code := by
      simp only [code, hkind]
      split
      · cases hreq
      · rfl
    rw [hkind, hcode]
    have hrun {u : State} := exec_of_request (s := s) (t := u) hreq
    refine ⟨fun hw => hrun (State.request_overrun k _ ht hw) rfl,
      fun hw r hr htag => hrun (State.request_replayed k _ ht hw hr htag) rfl, fun hw hc => ⟨?_, ?_⟩⟩
    · rintro ⟨ha, hk⟩
      exact hrun (State.request_busy k _ ht hw hc ha fun h => hk (congrArg _ h)) rfl
    · intro hidle
      have hidle := hidle.imp_right Option.some.inj
      refine ⟨fun h => (nomatch h), fun k' hk' => ?_⟩
      cases hk'
      refine ⟨fun hn => hrun (State.request_badLength k _ ht hw hc hidle hn) (State.answer_queues ..),
        fun hn ho h1 h2 h3 => ?_, fun hn ho h1 he => ?_⟩
      · have hr := Session.refusal_of_closed (x := (s.sessions[h.port]).restarted) (epoch := h.epoch)
          (by simpa [y] using ho) h1 h2 h3
        rw [Session.restarted_cause] at hr
        exact hrun (State.request_sessionRefusal k _ ht hw hc hidle hn hr) (State.answer_queues ..)
      · have hr := Session.refusal_of_epoch (x := (s.sessions[h.port]).restarted) (epoch := h.epoch)
          (by simpa [y] using ho) h1 (by simpa [y] using he)
        exact hrun (State.request_sessionRefusal k _ ht hw hc hidle hn hr) (State.answer_queues ..)
  · intro x y t kind code
    have hrun {u : State} := exec_of_unknownRequest (h := h) (s := s) (t := u) hnone
    refine ⟨fun hw => hrun (State.unknownRequest_overrun unknown ht hw) rfl,
      fun hw r hr htag => hrun (State.unknownRequest_replayed unknown ht hw hr htag) rfl, fun hw hc => ?_⟩
    have hfresh := State.unknownRequest_fresh unknown ht hw hc
    refine ⟨fun ha => ?_, fun hidle => ⟨fun _ => ?_, fun k hk => (nomatch hk)⟩⟩
    · exact hrun (hfresh.trans (if_pos (Option.isSome_iff_ne_none.mpr ha.1))) rfl
    · have hidle : x.awaiting = none := hidle.resolve_right (by simp [kind, Instr.request?])
      exact hrun (hfresh.trans (if_neg (by simpa [x] using hidle))) (State.answer_queues ..)

end Sys2Proof.Machine
end

section
/-! SUPPORT. Each field that the part sends determines what was sent (R179, R183). -/

namespace Sys2Proof

/-! ## Whole fields -/

@[simp] theorem halfBytes_inj {x y : Half} : halfBytes x = halfBytes y ↔ x = y := by
  refine ⟨fun h => ?_, congrArg _⟩
  simp only [halfBytes, List.cons.injEq, and_true] at h
  rw [← bytesHalf_bytes x, h.1, h.2, bytesHalf_bytes]

@[simp] theorem wordBytes_inj {x y : Word} : wordBytes x = wordBytes y ↔ x = y := by
  refine ⟨fun h => ?_, congrArg _⟩
  simp only [wordBytes, List.cons.injEq, and_true] at h
  obtain ⟨h3, h2, h1, h0⟩ := h
  rw [← bytesWord_bytes x, h3, h2, h1, h0, bytesWord_bytes]

@[simp] theorem halfBytes_append_inj {x y : Half} {l m : List Byte} :
    halfBytes x ++ l = halfBytes y ++ m ↔ x = y ∧ l = m := by
  rw [← halfBytes_inj]
  exact ⟨fun h => List.append_inj h rfl, fun ⟨h, h'⟩ => by rw [h, h']⟩

@[simp] theorem wordBytes_append_inj {x y : Word} {l m : List Byte} :
    wordBytes x ++ l = wordBytes y ++ m ↔ x = y ∧ l = m := by
  rw [← wordBytes_inj]
  exact ⟨fun h => List.append_inj h rfl, fun ⟨h, h'⟩ => by rw [h, h']⟩

/-- Two lists of blocks of one length agree as bytes exactly when they agree block by block. -/
theorem flatMap_inj {α β : Type} {f : α → List β} {n : Nat} (hn : 0 < n) (hlen : ∀ x, (f x).length = n) :
    ∀ {l m : List α}, (∀ x ∈ l, ∀ y ∈ m, f x = f y → x = y) → l.flatMap f = m.flatMap f → l = m
  | [], [], _, _ => rfl
  | [], y :: m, _, h => by
    have := congrArg List.length h
    simp only [List.flatMap_nil, List.length_nil, List.flatMap_cons, List.length_append, hlen] at this
    omega
  | x :: l, [], _, h => by
    have := congrArg List.length h
    simp only [List.flatMap_nil, List.length_nil, List.flatMap_cons, List.length_append, hlen] at this
    omega
  | x :: l, y :: m, hf, h => by
    rw [List.flatMap_cons, List.flatMap_cons] at h
    obtain ⟨hx, hl⟩ := List.append_inj h (by rw [hlen, hlen])
    rw [hf x (by simp) y (by simp) hx,
      flatMap_inj hn hlen (fun a ha b hb => hf a (by simp [ha]) b (by simp [hb])) hl]

/-- Two tables sent entry by entry, in blocks of one length, agree at every entry. -/
theorem flatMap_congr_inj {α β : Type} {f g : α → List β} (hlen : ∀ x, (f x).length = (g x).length) :
    ∀ {l : List α}, l.flatMap f = l.flatMap g → ∀ x ∈ l, f x = g x
  | [], _, x, hx => nomatch hx
  | y :: l, h, x, hx => by
    rw [List.flatMap_cons, List.flatMap_cons] at h
    obtain ⟨hy, hl⟩ := List.append_inj h (hlen y)
    rcases List.mem_cons.mp hx with rfl | hx
    · exact hy
    · exact flatMap_congr_inj hlen hl x hx

end Sys2Proof

namespace Sys2Proof.Machine

/-! ## Codes and numbers of one byte -/

/-- A number below 256 is told by its byte. -/
theorem natByte_inj {m n : Nat} (hm : m < 256) (hn : n < 256) : natByte m = natByte n ↔ m = n := by
  refine ⟨fun h => ?_, congrArg _⟩
  have := congrArg BitVec.toNat h
  simpa [natByte, BitVec.toNat_ofNat, Nat.mod_eq_of_lt hm, Nat.mod_eq_of_lt hn] using this

/-- An id of a table of at most 256 entries is told by its byte. -/
theorem natByte_val_inj {n : Nat} (hn : n ≤ 256) {i j : Fin n} : natByte i.val = natByte j.val ↔ i = j := by
  rw [natByte_inj (by omega) (by omega), Fin.ext_iff]

@[simp] theorem natByte_zone_inj {y z : ZoneId} : natByte y.val = natByte z.val ↔ y = z := natByte_val_inj (by decide)
@[simp] theorem natByte_chan_inj {c d : ChanId} : natByte c.val = natByte d.val ↔ c = d := natByte_val_inj (by decide)
@[simp] theorem natByte_res_inj {r q : ResId} : natByte r.val = natByte q.val ↔ r = q := natByte_val_inj (by decide)
@[simp] theorem natByte_line_inj {k l : LineId} : natByte k.val = natByte l.val ↔ k = l := natByte_val_inj (by decide)
@[simp] theorem portByte_inj {p q : PortId} : portByte p = portByte q ↔ p = q := natByte_val_inj (by decide)

@[simp] theorem flagByte_inj {a b : Bool} : flagByte a = flagByte b ↔ a = b := by revert a b; decide
@[simp] theorem holderByte_inj {p q : Option PortId} : holderByte p = holderByte q ↔ p = q := by revert p q; decide
@[simp] theorem Status.byte_inj {a b : Status} : a.byte = b.byte ↔ a = b := by
  have hback : ∀ x : Status, Status.ofNat x.byte.toNat = x := by intro x; cases x <;> rfl
  exact ⟨fun h => by rw [← hback a, h, hback b], congrArg _⟩
@[simp] theorem ChanMode.byte_inj {a b : ChanMode} : a.byte = b.byte ↔ a = b := by cases a <;> cases b <;> decide
@[simp] theorem ChanState.byte_inj {a b : ChanState} : a.byte = b.byte ↔ a = b := by cases a <;> cases b <;> decide
@[simp] theorem ZoneState.byte_inj {a b : ZoneState} : a.byte = b.byte ↔ a = b := by cases a <;> cases b <;> decide
@[simp] theorem Policy.byte_inj {a b : Policy} : a.byte = b.byte ↔ a = b := by cases a <;> cases b <;> decide
@[simp] theorem SubEdge.byte_inj {a b : SubEdge} : a.byte = b.byte ↔ a = b := by cases a <;> cases b <;> decide
@[simp] theorem OutMode.byte_inj {a b : OutMode} : a.byte = b.byte ↔ a = b := by cases a <;> cases b <;> decide
@[simp] theorem Polarity.byte_inj {a b : Polarity} : a.byte = b.byte ↔ a = b := by cases a <;> cases b <;> decide
@[simp] theorem Drive.byte_inj {a b : Drive} : a.byte = b.byte ↔ a = b := by cases a <;> cases b <;> decide
@[simp] theorem Retrigger.byte_inj {a b : Retrigger} : a.byte = b.byte ↔ a = b := by cases a <;> cases b <;> decide
@[simp] theorem CloseCause.byte_inj {a b : CloseCause} : a.byte = b.byte ↔ a = b := by cases a <;> cases b <;> decide

@[simp] theorem Levels.byte_inj {x y : Levels} : x.byte = y.byte ↔ x = y := by
  obtain ⟨a, b, i, g⟩ := x
  obtain ⟨a', b', i', g'⟩ := y
  simp only [Levels.mk.injEq]
  revert a b i g a' b' i' g'; decide

/-- The cause of a capture is told by its code and its zone byte. -/
theorem CaptureCause.bytes_inj {x y : CaptureCause} (hb : x.byte = y.byte) (hz : x.zoneByte = y.zoneByte) : x = y := by
  have hline : ∀ m n : CapId, (CaptureCause.line m).byte = (CaptureCause.line n).byte → m = n := by decide
  have hother : ∀ m : CapId, ∀ b ∈ [0, 3, 4], (CaptureCause.line m).byte ≠ b ∧ b ≠ (CaptureCause.line m).byte := by
    decide
  cases x with
  | request => cases y with
    | request => rfl
    | line n => exact absurd hb (hother n 0 (by decide)).2
    | zoneEnter z => cases hb
    | zoneExit z => cases hb
  | line m => cases y with
    | request => exact absurd hb (hother m 0 (by decide)).1
    | line n => rw [hline m n hb]
    | zoneEnter z => exact absurd hb (hother m 3 (by decide)).1
    | zoneExit z => exact absurd hb (hother m 4 (by decide)).1
  | zoneEnter z => cases y with
    | request => cases hb
    | line n => exact absurd hb (hother n 3 (by decide)).2
    | zoneEnter z' => rw [natByte_zone_inj.mp hz]
    | zoneExit z' => cases hb
  | zoneExit z => cases y with
    | request => cases hb
    | line n => exact absurd hb (hother n 4 (by decide)).2
    | zoneEnter z' => cases hb
    | zoneExit z' => rw [natByte_zone_inj.mp hz]

/-! ## Signed fields (R2) -/

theorem ofInt_count_inj {m n : Int} (hm : countInRange m = true) (hn : countInRange n = true) :
    BitVec.ofInt 32 m = BitVec.ofInt 32 n ↔ m = n := by
  refine ⟨fun h => ?_, congrArg _⟩
  have := congrArg BitVec.toInt h
  have hm := of_decide_eq_true hm
  have hn := of_decide_eq_true hn
  simp only [Config.countMin, Config.countMax] at hm hn
  rw [BitVec.toInt_ofInt, BitVec.toInt_ofInt, Int.bmod_eq_of_le (by omega) (by omega),
    Int.bmod_eq_of_le (by omega) (by omega)] at this
  exact this

theorem ofInt_turns_inj {m n : Int} (hm : turnsInRange m = true) (hn : turnsInRange n = true) :
    BitVec.ofInt 16 m = BitVec.ofInt 16 n ↔ m = n := by
  refine ⟨fun h => ?_, congrArg _⟩
  have := congrArg BitVec.toInt h
  have hm := of_decide_eq_true hm
  have hn := of_decide_eq_true hn
  simp only [Config.turnsMin, Config.turnsMax] at hm hn
  rw [BitVec.toInt_ofInt, BitVec.toInt_ofInt, Int.bmod_eq_of_le (by omega) (by omega),
    Int.bmod_eq_of_le (by omega) (by omega)] at this
  exact this

@[simp] theorem countBytes_append_inj {m n : Int} {l k : List Byte} :
    countBytes m ++ l = countBytes n ++ k ↔ BitVec.ofInt 32 m = BitVec.ofInt 32 n ∧ l = k := wordBytes_append_inj
@[simp] theorem turnsBytes_append_inj {m n : Int} {l k : List Byte} :
    turnsBytes m ++ l = turnsBytes n ++ k ↔ BitVec.ofInt 16 m = BitVec.ofInt 16 n ∧ l = k := halfBytes_append_inj

/-! ## Optional fields -/

/-- An option is told by its presence and its value, or the value sent in its place. -/
theorem option_eq_of_getD {α : Type} {o u : Option α} {a : α} (hs : o.isSome = u.isSome) (hg : o.getD a = u.getD a) :
    o = u := by
  cases o <;> cases u
  · rfl
  · cases hs
  · cases hs
  · exact congrArg some hg

/-- An option is told by its value alone when the value sent in its place is never its own. -/
theorem option_eq_of_getD_ne {α : Type} {o u : Option α} {a : α} (ho : o ≠ some a) (hu : u ≠ some a)
    (hg : o.getD a = u.getD a) : o = u := by
  cases o <;> cases u
  · rfl
  · exact absurd (congrArg some hg.symm) hu
  · exact absurd (congrArg some hg) ho
  · exact congrArg some hg

theorem claimBytes_inj {x y : Option Claim} (h : claimBytes x = claimBytes y) : x = y := by
  cases x with
  | none => cases y with
    | none => rfl
    | some d => exact absurd (List.cons.inj (List.cons.inj h).2).1 (by decide)
  | some c => cases y with
    | none => exact absurd (List.cons.inj (List.cons.inj h).2).1 (by decide)
    | some d =>
      obtain ⟨p, n⟩ := c
      obtain ⟨q, m⟩ := d
      simpa [claimBytes] using h

theorem subBytes_inj {x y : Option Subscription} (h : subBytes x = subBytes y) : x = y := by
  have hedge : ∀ e : SubEdge, e.byte ≠ 0 := by intro e; cases e <;> decide
  cases x with
  | none => cases y with
    | none => rfl
    | some d => exact absurd (List.cons.inj h).1.symm (hedge d.edge)
  | some c => cases y with
    | none => exact absurd (List.cons.inj h).1 (hedge c.edge)
    | some d =>
      obtain ⟨e, m⟩ := c
      obtain ⟨e', m'⟩ := d
      simpa [subBytes] using h

theorem linkBytes_inj {x y : Option Link} (h : linkBytes x = linkBytes y) : x = y := by
  have hline : ∀ k : LineId, natByte k.val ≠ 0xFF := by decide
  cases x with
  | none => cases y with
    | none => rfl
    | some d => exact absurd (List.cons.inj h).1.symm (hline d.line)
  | some c => cases y with
    | none => exact absurd (List.cons.inj h).1 (hline c.line)
    | some d =>
      obtain ⟨k, b⟩ := c
      obtain ⟨k', b'⟩ := d
      simpa [linkBytes] using h

theorem ActionSet.bytes_inj {x y : ActionSet} (h : x.bytes = y.bytes) : x = y := by
  obtain ⟨e, m, t⟩ := x
  obtain ⟨e', m', t'⟩ := y
  simpa [ActionSet.bytes] using h

end Sys2Proof.Machine
end

section
/-! SUPPORT. Event records, capture records and the records of the requests that read are told by their bytes. -/

namespace Sys2Proof.Machine

/-! ## Event records (R90, R91, R184) -/

theorem Event.kindByte_toNat (e : Event) : e.kindByte.toNat = e.ctorIdx + 1 := by cases e <;> rfl

theorem Event.ctorIdx_eq_of_kindByte {e f : Event} (h : e.kindByte = f.kindByte) : e.ctorIdx = f.ctorIdx := by
  have := congrArg BitVec.toNat h
  rw [e.kindByte_toNat, f.kindByte_toNat] at this
  omega

theorem setWidth_inj {n : Nat} (hn : n ≤ 32) {x y : BitVec n} : x.setWidth 32 = y.setWidth 32 ↔ x = y := by
  refine ⟨fun h => ?_, congrArg _⟩
  have := congrArg BitVec.toNat h
  rw [BitVec.toNat_setWidth_of_le hn, BitVec.toNat_setWidth_of_le hn] at this
  exact BitVec.eq_of_toNat_eq this

/-- An event is told by its kind and the three fields of its record, its numbers lying in their ranges. -/
theorem Event.eq_of_fields {e f : Event} (hk : e.ctorIdx = f.ctorIdx) :
    e.inRange = true → f.inRange = true → e.subject.getD 0 = f.subject.getD 0 →
    e.argument.getD 0 = f.argument.getD 0 → e.second.getD 0 = f.second.getD 0 → e = f := by
  cases e with
  | zoneEnter z n t =>
    refine Event.zoneEnter.elim f hk.symm fun z' n' t' he hf hs ha h2 => ?_
    simp only [Event.inRange, Bool.and_eq_true] at he hf
    rw [natByte_zone_inj.mp hs, (ofInt_count_inj he.1 hf.1).mp ha, (ofInt_turns_inj he.2 hf.2).mp h2]
  | zoneExit z n t =>
    refine Event.zoneExit.elim f hk.symm fun z' n' t' he hf hs ha h2 => ?_
    simp only [Event.inRange, Bool.and_eq_true] at he hf
    rw [natByte_zone_inj.mp hs, (ofInt_count_inj he.1 hf.1).mp ha, (ofInt_turns_inj he.2 hf.2).mp h2]
  | indexMark c n t =>
    refine Event.indexMark.elim f hk.symm fun c' n' t' he hf hs ha h2 => ?_
    simp only [Event.inRange, Bool.and_eq_true] at he hf
    rw [natByte_chan_inj.mp hs, (ofInt_count_inj he.1 hf.1).mp ha, (ofInt_turns_inj he.2 hf.2).mp h2]
  | channelFault c n =>
    refine Event.channelFault.elim f hk.symm fun c' n' he hf hs ha h2 => ?_
    rw [natByte_chan_inj.mp hs, (ofInt_count_inj he hf).mp ha]
  | zoneResync z st =>
    refine Event.zoneResync.elim f hk.symm fun z' st' he hf hs ha h2 => ?_
    rw [natByte_zone_inj.mp hs, ZoneState.byte_inj.mp ((setWidth_inj (by decide)).mp ha)]
  | captureReady q =>
    refine Event.captureReady.elim f hk.symm fun q' he hf hs ha h2 => ?_
    rw [(setWidth_inj (by decide)).mp ha]
  | captureLost n =>
    refine Event.captureLost.elim f hk.symm fun n' he hf hs ha h2 => ?_
    rw [(setWidth_inj (by decide)).mp ha]
  | overflow n =>
    refine Event.overflow.elim f hk.symm fun n' he hf hs ha h2 => ?_
    rw [(setWidth_inj (by decide)).mp ha]
  | homed c =>
    refine Event.homed.elim f hk.symm fun c' he hf hs ha h2 => ?_
    rw [natByte_chan_inj.mp hs]
  | channelRecovered c =>
    refine Event.channelRecovered.elim f hk.symm fun c' he hf hs ha h2 => ?_
    rw [natByte_chan_inj.mp hs]
  | channelReconfigured c =>
    refine Event.channelReconfigured.elim f hk.symm fun c' he hf hs ha h2 => ?_
    rw [natByte_chan_inj.mp hs]
  | claimFreed r =>
    refine Event.claimFreed.elim f hk.symm fun r' he hf hs ha h2 => ?_
    rw [natByte_res_inj.mp hs]

theorem EventRecord.bytes_inj {r q : EventRecord} (hr : r.event.inRange = true) (hq : q.event.inRange = true)
    (h : r.bytes = q.bytes) : r = q := by
  obtain ⟨e, n⟩ := r
  obtain ⟨f, m⟩ := q
  simp only [EventRecord.bytes, List.append_assoc, List.cons_append, List.nil_append, List.cons.injEq,
    wordBytes_append_inj, halfBytes_inj] at h
  obtain ⟨hkind, -, hs, hstamp, ha, h2⟩ := h
  rw [Event.eq_of_fields (Event.ctorIdx_eq_of_kindByte hkind) hr hq hs ha h2, hstamp]

/-- The presence byte tells which fields the kind carries, and is 0 above them (R184). -/
theorem Event.presence_bits (e : Event) :
    e.presence.getLsbD 0 = e.subject.isSome ∧ e.presence.getLsbD 1 = e.argument.isSome ∧
      e.presence.getLsbD 2 = e.second.isSome ∧ e.presence.toNat < 8 := by
  rw [Event.presence]
  generalize e.subject.isSome = a
  generalize e.argument.isSome = b
  generalize e.second.isSome = c
  revert a b c; decide

/-! ## Capture records (R67, R68, R185) -/

theorem ChannelEntry.bytes_inj {x y : ChannelEntry} (hx : countInRange x.count && turnsInRange x.turns)
    (hy : countInRange y.count && turnsInRange y.turns) (h : x.bytes = y.bytes) : x = y := by
  obtain ⟨c, st, n, t, ref⟩ := x
  obtain ⟨c', st', n', t', ref'⟩ := y
  rw [Bool.and_eq_true] at hx hy
  simp only [ChannelEntry.bytes, List.append_assoc, List.cons_append, List.nil_append, List.cons.injEq, and_true,
    natByte_chan_inj, ChanState.byte_inj, countBytes_append_inj, turnsBytes_append_inj, flagByte_inj,
    ofInt_count_inj hx.1 hy.1, ofInt_turns_inj hx.2 hy.2] at h
  simpa only [ChannelEntry.mk.injEq] using h

theorem CaptureRecord.bytes_inj {x y : CaptureRecord}
    (hx : x.entries.all fun e => countInRange e.count && turnsInRange e.turns)
    (hy : y.entries.all fun e => countInRange e.count && turnsInRange e.turns) (h : x.bytes = y.bytes) : x = y := by
  obtain ⟨q, cause, n, mask, es⟩ := x
  obtain ⟨q', cause', n', mask', es'⟩ := y
  simp only [CaptureRecord.bytes, List.append_assoc, List.cons_append, List.nil_append, halfBytes_append_inj,
    List.cons.injEq, wordBytes_append_inj] at h
  obtain ⟨hq, hcause, hzone, hn, hmask, hes⟩ := h
  rw [List.all_eq_true] at hx hy
  have hentries : es = es' := flatMap_inj (by decide) ChannelEntry.bytes_length
    (fun e he f hf => ChannelEntry.bytes_inj (hx e he) (hy f hf)) hes
  rw [hq, CaptureCause.bytes_inj hcause hzone, hn, hmask, hentries]

/-! ## The records that requests read (R25, R60) -/

/-- The mark of a channel, told by its presence and its three fields. -/
theorem mark_eq_of_fields {x y : Option IndexMark}
    (hx : x.all fun m => countInRange m.count && turnsInRange m.turns)
    (hy : y.all fun m => countInRange m.count && turnsInRange m.turns) (hs : x.isSome = y.isSome)
    (hc : BitVec.ofInt 32 ((x.map (·.count)).getD 0) = BitVec.ofInt 32 ((y.map (·.count)).getD 0))
    (ht : BitVec.ofInt 16 ((x.map (·.turns)).getD 0) = BitVec.ofInt 16 ((y.map (·.turns)).getD 0))
    (hn : (x.map (·.stamp)).getD 0 = (y.map (·.stamp)).getD 0) : x = y := by
  cases x with
  | none => cases y with
    | none => rfl
    | some b => cases hs
  | some a => cases y with
    | none => cases hs
    | some b =>
      obtain ⟨n, t, st⟩ := a
      obtain ⟨n', t', st'⟩ := b
      simp only [Option.all_some, Bool.and_eq_true] at hx hy
      rw [(ofInt_count_inj hx.1 hy.1).mp hc, (ofInt_turns_inj hx.2 hy.2).mp ht, show st = st' from hn]

theorem channelBytes_inj {c d : ChanId} {x y : Channel} {n m : Word} {p q : Option PortId}
    (hx : (Results.channelRecord c x n p).inRange = true) (hy : (Results.channelRecord d y m q).inRange = true)
    (h : channelBytes c x n p = channelBytes d y m q) : c = d ∧ x = y ∧ n = m ∧ p = q := by
  simp only [Results.inRange, Bool.and_eq_true] at hx hy
  obtain ⟨⟨⟨hmx, hcx⟩, htx⟩, hmarkx⟩ := hx
  obtain ⟨⟨⟨hmy, hcy⟩, hty⟩, hmarky⟩ := hy
  have hmx : x.modulus ≤ 16777216 := of_decide_eq_true hmx
  have hmy : y.modulus ≤ 16777216 := of_decide_eq_true hmy
  simp only [channelBytes, List.append_assoc, List.cons_append, List.nil_append, List.cons.injEq, and_true,
    natByte_chan_inj, ChanMode.byte_inj, wordBytes_append_inj, flagByte_inj, ChanState.byte_inj,
    countBytes_append_inj, turnsBytes_append_inj, Levels.byte_inj, holderByte_inj] at h
  obtain ⟨hc, hmode, hmod, hinv, hgate, hidx, hstate, hcount, hturns, href, hwrap, hhome, hsome, hmc, hmt, hms, hfault,
    hlevels, hn, hp⟩ := h
  have hmodulus : x.modulus = y.modulus := by
    have := congrArg BitVec.toNat hmod
    rw [BitVec.toNat_ofNat, BitVec.toNat_ofNat] at this
    omega
  have hmark : x.mark = y.mark := mark_eq_of_fields hmarkx hmarky hsome hmc hmt hms
  refine ⟨hc, ?_, hn, hp⟩
  cases x
  cases y
  simp only [Channel.mk.injEq]
  exact ⟨hmode, hmodulus, hinv, hgate, hidx, hstate, (ofInt_count_inj hcx hcy).mp hcount,
    (ofInt_turns_inj htx hty).mp hturns, href, hwrap, hhome, hmark, hfault, hlevels⟩

theorem zoneBytes_inj {i j : ZoneId} {x y : Zone} (hx : (Results.zoneRecord i x).inRange = true)
    (hy : (Results.zoneRecord j y).inRange = true) (h : zoneBytes i x = zoneBytes j y) : i = j ∧ x = y := by
  simp only [Results.inRange, Bool.and_eq_true, decide_eq_true_eq] at hx hy
  obtain ⟨⟨hlx, hhx⟩, hsx⟩ := hx
  obtain ⟨⟨hly, hhy⟩, hsy⟩ := hy
  simp only [zoneBytes, List.append_assoc, List.cons_append, List.nil_append, List.cons.injEq, natByte_zone_inj,
    portByte_inj, natByte_chan_inj, countBytes_append_inj, halfBytes_append_inj, flagByte_inj, ZoneState.byte_inj,
    ofInt_count_inj hlx hly, ofInt_count_inj hhx hhy] at h
  obtain ⟨hid, howner, hchan, hlow, hhigh, hhyst, harmed, hstate, hrest⟩ := h
  obtain ⟨henter, hrest⟩ := List.append_inj hrest (by simp)
  obtain ⟨hexit, hrest⟩ := List.append_inj hrest (by simp)
  obtain ⟨hlink, hentries⟩ := List.append_inj hrest (by simp)
  have hhysteresis : x.hysteresis = y.hysteresis := by
    have := congrArg BitVec.toNat hhyst
    rw [BitVec.toNat_ofNat, BitVec.toNat_ofNat] at this
    omega
  refine ⟨hid, ?_⟩
  cases x
  cases y
  simp only [Zone.mk.injEq]
  exact ⟨howner, hchan, hlow, hhigh, hhysteresis, harmed, hstate, ActionSet.bytes_inj henter, ActionSet.bytes_inj hexit,
    linkBytes_inj hlink, halfBytes_inj.mp hentries⟩

end Sys2Proof.Machine
end

section
/-! SUPPORT. The bytes of a response determine the response: the statement about what the part sends is settled. -/

namespace Sys2Proof.Machine

/-! ## The layout that a status and a kind give (R182) -/

/-- The layout of the results of an OK, by the kind: the place of the layout among those of Results. -/
def okLayout : Kind → Nat
  | .chanRead => 6
  | .timeRead => 7
  | .zoneCreate => 8
  | .zoneArm => 9
  | .zoneRead => 10
  | .zoneList => 11
  | .capture => 12
  | .capFetch => 13
  | .capAck => 14
  | .capStatus => 15
  | .evtRead => 16
  | .evtAttn => 17
  | .claim => 18
  | .claimList => 19
  | .outMode => 20
  | .outRead => 21
  | .openSession => 22
  | .await => 23
  | .ident => 24
  | .portStatus => 25
  | _ => 0

/-- The layout of the results of a status and a kind code. -/
def layoutOf (status : Status) (code : Half) : Nat :=
  match status with
  | .noSession => 1
  | .alreadyOpen => 2
  | .held => if code = Kind.claim.code then 3 else 4
  | .stale => 5
  | .ok => ((Kind.ofCode code).map okLayout).getD 0
  | _ => 0

theorem layoutOf_ok (k : Kind) : layoutOf .ok k.code = okLayout k := by rw [layoutOf, Kind.ofCode_code]; rfl

theorem okLayout_of_silent : ∀ k ∈ silentKinds, okLayout k = 0 := by decide

/-- The results of a response laid out by R182 are of the layout that its status and its kind name. -/
theorem Response.ctorIdx_of_laidOut {r : Response} (h : r.laidOut = true) :
    r.results.ctorIdx = layoutOf r.status r.kind := by
  obtain ⟨tag, status, replay, code, results⟩ := r
  have hok {k : Kind} : (status == .ok && code == k.code) = true → layoutOf status code = okLayout k := by
    intro hk
    obtain ⟨hs, hc⟩ := Bool.and_eq_true _ _ |>.mp hk
    rw [beq_iff_eq.mp hs, beq_iff_eq.mp hc, layoutOf_ok]
  cases results with
  | none =>
    show 0 = layoutOf status code
    unfold Response.laidOut at h
    by_cases hs : status = .ok
    · subst hs
      obtain ⟨k, hk, rfl⟩ := List.mem_map.mp (List.contains_iff_mem.mp h)
      rw [layoutOf_ok, okLayout_of_silent k hk]
    · cases status with
      | ok => exact absurd rfl hs
      | noSession | alreadyOpen | held | stale => exact absurd h Bool.false_ne_true
      | _ => rfl
  | closeCause c => cases beq_iff_eq.mp h; rfl
  | alreadyOpen e n => cases beq_iff_eq.mp h; rfl
  | oldestSeq q => cases beq_iff_eq.mp h; rfl
  | holder p =>
    obtain ⟨hs, hc⟩ := Bool.and_eq_true _ _ |>.mp h
    cases beq_iff_eq.mp hs; cases beq_iff_eq.mp hc; rfl
  | heldResource x p =>
    obtain ⟨hs, hc⟩ := Bool.and_eq_true _ _ |>.mp h
    cases beq_iff_eq.mp hs; cases beq_iff_eq.mp hc; rfl
  | _ => exact (hok h).symm

/-! ## Results of one layout -/

/-- Results of one layout are told by their bytes, but for the increments left of a pulse timer (R134, R183). -/
theorem Results.asSent_eq_of_bytes {x y : Results} (hk : x.ctorIdx = y.ctorIdx) :
    x.inRange = true → y.inRange = true → x.bytes = y.bytes → x.asSent = y.asSent := by
  cases x with
  | none => exact Results.none.elim y hk.symm fun _ _ _ => rfl
  | closeCause c =>
    refine Results.closeCause.elim y hk.symm fun c' _ _ h => ?_
    rw [CloseCause.byte_inj.mp (List.cons.inj h).1]
  | alreadyOpen e n =>
    refine Results.alreadyOpen.elim y hk.symm fun e' n' hx hy h => ?_
    simp only [Results.bytes, List.cons.injEq, and_true] at h
    rw [h.1, option_eq_of_getD_ne (bne_iff_ne.mp hx) (bne_iff_ne.mp hy) h.2]
  | holder p =>
    refine Results.holder.elim y hk.symm fun p' _ _ h => ?_
    rw [portByte_inj.mp (List.cons.inj h).1]
  | heldResource r p =>
    refine Results.heldResource.elim y hk.symm fun r' p' _ _ h => ?_
    simp only [Results.bytes, List.cons.injEq, and_true, natByte_res_inj, portByte_inj] at h
    rw [h.1, h.2]
  | oldestSeq q =>
    refine Results.oldestSeq.elim y hk.symm fun q' _ _ h => ?_
    rw [halfBytes_inj.mp h]
  | channelRecord c record now who =>
    refine Results.channelRecord.elim y hk.symm fun c' record' now' who' hx hy h => ?_
    obtain ⟨hc, hr, hn, hw⟩ := channelBytes_inj hx hy h
    rw [hc, hr, hn, hw]
  | times a b =>
    refine Results.times.elim y hk.symm fun a' b' _ _ h => ?_
    simp only [Results.bytes, wordBytes_append_inj, wordBytes_inj] at h
    rw [h.1, h.2]
  | zoneCreated z st =>
    refine Results.zoneCreated.elim y hk.symm fun z' st' _ _ h => ?_
    simp only [Results.bytes, List.cons.injEq, and_true, natByte_zone_inj, ZoneState.byte_inj] at h
    rw [h.1, h.2]
  | zoneState st =>
    refine Results.zoneState.elim y hk.symm fun st' _ _ h => ?_
    rw [ZoneState.byte_inj.mp (List.cons.inj h).1]
  | zoneRecord z record =>
    refine Results.zoneRecord.elim y hk.symm fun z' record' hx hy h => ?_
    obtain ⟨hz, hr⟩ := zoneBytes_inj hx hy h
    rw [hz, hr]
  | zoneList zs =>
    refine Results.zoneList.elim y hk.symm fun zs' _ _ h => ?_
    rw [flatMap_inj (n := 3) (by decide) (fun _ => rfl) (fun e _ f _ hef => ?_) (List.cons.inj h).2]
    simp only [List.cons.injEq, and_true, natByte_zone_inj, portByte_inj, ZoneState.byte_inj] at hef
    exact Prod.ext hef.1 (Prod.ext hef.2.1 hef.2.2)
  | captureSeq q =>
    refine Results.captureSeq.elim y hk.symm fun q' _ _ h => ?_
    rw [halfBytes_inj.mp h]
  | captureRecord r =>
    refine Results.captureRecord.elim y hk.symm fun r' hx hy h => ?_
    rw [CaptureRecord.bytes_inj hx hy h]
  | recordsLeft n =>
    refine Results.recordsLeft.elim y hk.symm fun n' hx hy h => ?_
    have hn : n ≤ 4 := of_decide_eq_true hx
    have hn' : n' ≤ 4 := of_decide_eq_true hy
    rw [(natByte_inj (by omega) (by omega)).mp (List.cons.inj h).1]
  | captureStatus fill next policy subs lost =>
    refine Results.captureStatus.elim y hk.symm fun fill' next' policy' subs' lost' hx hy h => ?_
    have hn : fill ≤ 4 := of_decide_eq_true hx
    have hn' : fill' ≤ 4 := of_decide_eq_true hy
    simp only [Results.bytes, List.append_assoc, List.cons_append, List.nil_append, List.cons.injEq,
      halfBytes_append_inj, Policy.byte_inj] at h
    obtain ⟨hfill, hnext, hpolicy, hrest⟩ := h
    obtain ⟨h0, hrest⟩ := List.append_inj hrest (by simp)
    obtain ⟨h1, hlost⟩ := List.append_inj hrest (by simp)
    have hsubs : subs = subs' := by
      ext i hi : 1
      match i, hi with
      | 0, _ => exact subBytes_inj h0
      | 1, _ => exact subBytes_inj h1
    rw [(natByte_inj (by omega) (by omega)).mp hfill, hnext, hpolicy, hsubs, halfBytes_inj.mp hlost]
  | events rs n =>
    refine Results.events.elim y hk.symm fun rs' n' hx hy h => ?_
    simp only [Results.inRange, Bool.and_eq_true, List.all_eq_true] at hx hy
    have hn : n ≤ 16 := (of_decide_eq_true hx.1).2
    have hn' : n' ≤ 16 := (of_decide_eq_true hy.1).2
    simp only [Results.bytes, List.cons_append, List.nil_append, List.cons.injEq] at h
    obtain ⟨-, hleft, hrecords⟩ := h
    rw [(natByte_inj (by omega) (by omega)).mp hleft, flatMap_inj (by decide) EventRecord.bytes_length
      (fun e he f hf => EventRecord.bytes_inj (hx.2 e he) (hy.2 f hf)) hrecords]
  | attention on n =>
    refine Results.attention.elim y hk.symm fun on' n' hx hy h => ?_
    have hn : n ≤ 16 := of_decide_eq_true hx
    have hn' : n' ≤ 16 := of_decide_eq_true hy
    simp only [Results.bytes, List.cons.injEq, and_true, flagByte_inj] at h
    rw [h.1, (natByte_inj (by omega) (by omega)).mp h.2]
  | claimed r stamp =>
    refine Results.claimed.elim y hk.symm fun r' stamp' _ _ h => ?_
    simp only [Results.bytes, List.cons.injEq, natByte_res_inj, wordBytes_inj] at h
    rw [h.1, h.2]
  | claimList claims =>
    refine Results.claimList.elim y hk.symm fun claims' _ _ h => ?_
    have hentry := flatMap_congr_inj (fun r => by simp) h
    have hclaims : claims = claims' := by
      ext i hi : 1
      exact claimBytes_inj (List.cons.inj (hentry ⟨i, hi⟩ (List.mem_finRange _))).2
    rw [hclaims]
  | drive d =>
    refine Results.drive.elim y hk.symm fun d' _ _ h => ?_
    rw [Drive.byte_inj.mp (List.cons.inj h).1]
  | outRecord who l =>
    refine Results.outRecord.elim y hk.symm fun who' l' _ _ h => ?_
    simp only [Results.bytes, List.cons_append, List.nil_append, List.cons.injEq, and_true,
      holderByte_inj, Polarity.byte_inj, OutMode.byte_inj, flagByte_inj, halfBytes_append_inj, Retrigger.byte_inj,
      Drive.byte_inj] at h
    obtain ⟨hwho, hpol, hmode, hdirect, hwidth, hre, htimer, hdrive, hsafe, hpin⟩ := h
    have hsent : (l.timer.map fun _ => 0) = l'.timer.map fun _ => 0 := by
      cases ht : l.timer <;> cases ht' : l'.timer <;> simp_all
    simp only [Results.asSent, hwho, hpol, hmode, hdirect, hwidth, hre, hsent, hdrive, hsafe, hpin]
  | opened e c =>
    refine Results.opened.elim y hk.symm fun e' c' _ _ h => ?_
    simp only [Results.bytes, List.cons.injEq, and_true, CloseCause.byte_inj] at h
    rw [h.1, h.2]
  | depth n =>
    refine Results.depth.elim y hk.symm fun n' hx hy h => ?_
    have hn : n ≤ 16 := of_decide_eq_true hx
    have hn' : n' ≤ 16 := of_decide_eq_true hy
    rw [(natByte_inj (by omega) (by omega)).mp (List.cons.inj h).1]
  | ident p =>
    refine Results.ident.elim y hk.symm fun p' _ _ h => ?_
    simp only [Results.bytes, halfBytes_append_inj, List.cons.injEq, true_and, and_true, portByte_inj] at h
    rw [h]
  | portStatus o e c crc framing overrun receipt tag =>
    refine Results.portStatus.elim y hk.symm fun o' e' c' crc' framing' overrun' receipt' tag' _ _ h => ?_
    simp only [Results.bytes, List.append_assoc, List.cons_append, List.nil_append, List.cons.injEq, and_true,
      halfBytes_append_inj, wordBytes_append_inj, flagByte_inj, CloseCause.byte_inj] at h
    obtain ⟨ho, he, hc, hcrc, hframing, hoverrun, hreceipt, hsome, htag⟩ := h
    rw [ho, he, hc, hcrc, hframing, hoverrun, hreceipt, option_eq_of_getD hsome htag]

/-! ## Responses -/

/-- A body laid out by R182 tells the response. -/
theorem Response.asSent_eq_of_body {r q : Response} (hr : r.laidOut = true) (hq : q.laidOut = true)
    (hr' : r.results.inRange = true) (hq' : q.results.inRange = true) (h : r.body = q.body) :
    ({ r with results := r.results.asSent } : Response) = { q with results := q.results.asSent } := by
  have hidx := Response.ctorIdx_of_laidOut hr
  have hidx' := Response.ctorIdx_of_laidOut hq
  simp only [Response.body, List.cons_append, List.nil_append, List.cons.injEq, Status.byte_inj,
    flagByte_inj, halfBytes_append_inj] at h
  obtain ⟨htag, hstatus, hreplay, hkind, hbytes⟩ := h
  have hlayout : r.results.ctorIdx = q.results.ctorIdx := by rw [hidx, hidx', hstatus, hkind]
  rw [htag, hstatus, hreplay, hkind, Results.asSent_eq_of_bytes hlayout hr' hq' hbytes]

/-- A frame tells its body, whatever its CRC. -/
theorem frameBytes_inj {l m : List Byte} (h : frameBytes l = frameBytes m) : l = m := by
  simp only [frameBytes, afterSync, List.cons.injEq, true_and, List.cons_append] at h
  exact (List.append_inj' h.2 rfl).1

/-- Settles O57: field by field, each layout being told by the status and the kind before it. -/
theorem sentBytesKeepEveryField : Obligations.SentBytesKeepEveryField := by
  exact ⟨fun r => ⟨_, by rw [EventRecord.bytes, List.append_assoc, List.append_assoc], rfl, r.event.presence_bits⟩,
    fun r q hr hq h => EventRecord.bytes_inj hr hq h, fun r => ⟨rfl, r.body_length⟩, fun s p => rfl,
    fun r q hr hq hr' hq' h => Response.asSent_eq_of_body hr hq hr' hq' (h.elim id frameBytes_inj)⟩

end Sys2Proof.Machine
end

section
/-! SUPPORT. What a master's request leaves of the other masters (0.1, R38, R51, R108). -/

namespace Sys2Proof.Machine

/-! ## Sparing the other masters -/

/-- Between two hubs the other masters than p keep their sessions but for the silence timer, their capture states and
claims, their zones but for the state, and their lines, but for the drive and the pin of a line in FOLLOW. -/
structure Spares (p : PortId) (s t : State) : Prop where
  session : ∀ q : PortId, q ≠ p → ∃ w, t.sessions[q] = { s.sessions[q] with timer := w }
  capture : ∀ q : PortId, q ≠ p → t.capture[q] = s.capture[q]
  claim : ∀ r : ResId, ∀ x ∈ s.claims[r], x.holder ≠ p → t.claims[r] = some x
  zone : ∀ z : ZoneId, ∀ y ∈ s.zones[z], y.owner ≠ p → ∃ w, t.zones[z] = some { y with state := w }
  line : ∀ k : LineId, ∀ x ∈ s.claims[lineRes k], x.holder ≠ p →
    (∃ d n, t.lines[k] = { s.lines[k] with drive := d, pin := n }) ∧
      ((s.lines[k]).mode ≠ .follow → t.lines[k] = s.lines[k])

theorem State.holder_of_claim {s : State} {r : ResId} {x : Claim} (hx : s.claims[r] = some x) :
    s.holder r = some x.holder := by
  rw [State.holder, hx]; rfl

/-- An entry that one session holds is not another's. -/
theorem State.ne_of_holder {s : State} {r e : ResId} {p : PortId} {x : Claim} (hr : s.holder r = some p)
    (hx : s.claims[e] = some x) (hp : x.holder ≠ p) : e ≠ r := by
  rintro rfl
  exact hp (Option.some.inj ((State.holder_of_claim hx).symm.trans hr))

namespace Spares
variable {p : PortId} {s t u : State}

/-- Changes of a master's own session and capture state, beside the queues, the ports and the channels. -/
theorem of_same (hs : ∀ q : PortId, q ≠ p → t.sessions[q] = s.sessions[q])
    (hc : ∀ q : PortId, q ≠ p → t.capture[q] = s.capture[q]) (hcl : t.claims = s.claims) (hz : t.zones = s.zones)
    (hl : t.lines = s.lines) : Spares p s t where
  session q hq := ⟨_, hs q hq⟩
  capture := hc
  claim r x hx _ := by rw [hcl]; exact hx
  zone z y hy _ := ⟨_, by rw [hz]; exact hy⟩
  line k x _ _ := by rw [hl]; exact ⟨⟨_, _, rfl⟩, fun _ => rfl⟩

theorem refl (p : PortId) (s : State) : Spares p s s := .of_same (fun _ _ => rfl) (fun _ _ => rfl) rfl rfl rfl

theorem trans (h : Spares p s t) (g : Spares p t u) : Spares p s u where
  session q hq := by
    obtain ⟨w, hw⟩ := h.session q hq
    obtain ⟨v, hv⟩ := g.session q hq
    exact ⟨v, by rw [hv, hw]⟩
  capture q hq := (g.capture q hq).trans (h.capture q hq)
  claim r x hx hp := g.claim r x (h.claim r x hx hp) hp
  zone z y hy hp := by
    obtain ⟨w, hw⟩ := h.zone z y hy hp
    obtain ⟨v, hv⟩ := g.zone z _ hw hp
    exact ⟨v, hv⟩
  line k x hx hp := by
    obtain ⟨⟨d, n, hd⟩, hm⟩ := h.line k x hx hp
    obtain ⟨⟨d', n', hd'⟩, hm'⟩ := g.line k x (h.claim _ x hx hp) hp
    refine ⟨⟨d', n', by rw [hd', hd]⟩, fun hf => ?_⟩
    rw [hm' (by rw [hd]; exact hf), hm hf]

/-! ## The moves of the ports -/

theorem setSession (s : State) (p : PortId) (x : Session) : Spares p s (s.setSession p x) :=
  .of_same (fun _ hq => get_set_of_ne _ hq _) (fun _ _ => rfl) rfl rfl rfl

theorem setPort (s : State) (p q : PortId) (x : Port) : Spares p s (s.setPort q x) :=
  .of_same (fun _ _ => rfl) (fun _ _ => rfl) rfl rfl rfl

theorem setQueue (s : State) (p : PortId) (x : EventQueue) : Spares p s (s.setQueue p x) :=
  .of_same (fun _ _ => rfl) (fun _ _ => rfl) rfl rfl rfl

theorem setCapture (s : State) (p : PortId) (x : CaptureState) : Spares p s (s.setCapture p x) :=
  .of_same (fun _ _ => rfl) (fun _ hq => get_set_of_ne _ hq _) rfl rfl rfl

theorem setChannel (s : State) (p : PortId) (c : ChanId) (x : Channel) : Spares p s (s.setChannel c x) :=
  .of_same (fun _ _ => rfl) (fun _ _ => rfl) rfl rfl rfl

theorem posted (s : State) (p : PortId) (es : PortId → List Event) : Spares p s (s.posted es) :=
  .of_same (fun _ _ => rfl) (fun _ _ => rfl) rfl rfl rfl

theorem frameAccepted (s : State) (p : PortId) : Spares p s (s.frameAccepted p) :=
  (setPort s p p _).trans (setSession _ p _)

theorem answer (s : State) (p : PortId) (tag : Byte) (k : Half) (status : Status) (results : Results) :
    Spares p s (s.answer p tag k status results) :=
  .of_same (fun _ _ => by rw [State.answer_sessions]) (fun _ _ => by rw [State.answer_capture])
    (State.answer_claims ..) (State.answer_zones ..) (State.answer_lines ..)

/-- The end of a happening starts silence timers again, and touches nothing else of a session (R144, R169). -/
theorem notify (s : State) (p : PortId) (t : State) : Spares p t (s.notify t) where
  session q _ := by
    have h : (s.awaitsEnded t).sessions[q] = endedSession s t q := by simp [State.awaitsEnded]
    rw [State.notify_eq_awaitsEnded, h, endedSession]
    split
    · exact ⟨_, rfl⟩
    · exact ⟨_, rfl⟩
  capture q _ := by rw [State.notify_eq_awaitsEnded]; rfl
  claim r x hx _ := by rw [State.notify_eq_awaitsEnded]; exact hx
  zone z y hy _ := ⟨_, by rw [State.notify_eq_awaitsEnded]; exact hy⟩
  line k x _ _ := by rw [State.notify_eq_awaitsEnded]; exact ⟨⟨_, _, rfl⟩, fun _ => rfl⟩

/-! ## The moves of the tables -/

/-- A discontinuity raw-evaluates zones and drives FOLLOW lines, of every master (R51). -/
theorem resynced (s : State) (p : PortId) (c : ChanId) : Spares p s (s.resynced c) where
  session q _ := ⟨_, by rw [State.resynced_sessions]⟩
  capture q _ := by rw [State.resynced_capture]
  claim r x hx _ := by rw [State.resynced_claims]; exact hx
  zone z y hy _ := by
    rw [State.resynced_zone, show s.zones[z] = some y from hy, Option.map_some, State.zoneResynced]
    split
    · exact ⟨_, rfl⟩
    · exact ⟨_, rfl⟩
  line k x hx hp := by
    classical
    rw [State.resynced_line]
    split
    · rename_i hf; exact ⟨⟨_, _, rfl⟩, fun hm => absurd hf.2.1 hm⟩
    · exact ⟨⟨_, _, rfl⟩, fun _ => rfl⟩

theorem setLine {k : LineId} (hh : s.holder (lineRes k) = some p) (l : OutLine) : Spares p s (s.setLine k l) where
  session q _ := ⟨_, rfl⟩
  capture q _ := rfl
  claim r x hx _ := hx
  zone z y hy _ := ⟨_, hy⟩
  line j x hx hp := by
    have hne : j ≠ k := fun e => State.ne_of_holder hh hx hp (congrArg lineRes e)
    have hl : (s.setLine k l).lines[j] = s.lines[j] := get_set_of_ne _ hne _
    rw [hl]; exact ⟨⟨_, _, rfl⟩, fun _ => rfl⟩

/-- A slot that is free or the master's own, rewritten, and the line it links to, which the master holds (R39). -/
theorem rezoned {z : ZoneId} {o : Option Zone} {link : Option Link} (hz : ∀ y ∈ s.zones[z], y.owner = p)
    (hl : ∀ l ∈ link, s.holder (lineRes l.line) = some p) : Spares p s ((s.setZone z o).recomputeLink link) where
  session q _ := ⟨_, by rw [State.recomputeLink_frame]; rfl⟩
  capture q _ := by rw [State.recomputeLink_frame]; rfl
  claim r x hx _ := by rw [State.recomputeLink_frame]; exact hx
  zone z' y hy hp := by
    have hne : z' ≠ z := by rintro rfl; exact hp (hz y hy)
    rw [State.recomputeLink_frame]
    exact ⟨_, (get_set_of_ne _ hne _).trans hy⟩
  line k x hx hp := by
    have hk : link ≠ some ⟨k, true⟩ := fun e => State.ne_of_holder (hl _ e) hx hp rfl
    rw [State.recomputeLink_line, if_neg (by simp [hk])]
    exact ⟨⟨_, _, rfl⟩, fun _ => rfl⟩

/-- A free entry claimed, with its line (R109, R122). -/
theorem claimed {r : ResId} (hr : s.claims[r] = none) (x : Claim) :
    Spares p s ((s.setClaim r (some x)).claimedDrive r) where
  session q _ := ⟨_, by rw [State.claimedDrive_frame]; rfl⟩
  capture q _ := by rw [State.claimedDrive_frame]; rfl
  claim e y hy _ := by
    have hne : e ≠ r := by rintro rfl; rw [hr] at hy; cases hy
    rw [State.claimedDrive_frame]
    exact (get_set_of_ne _ hne _).trans hy
  zone z y hy _ := ⟨_, by rw [State.claimedDrive_frame]; exact hy⟩
  line k y hy hp := by
    have hne : lineRes k ≠ r := by intro e; subst e; rw [hr] at hy; cases hy
    rw [State.claimedDrive_line, if_neg hne]
    exact ⟨⟨_, _, rfl⟩, fun _ => rfl⟩

/-- An entry of the master freed, with its line (R112). -/
theorem freeClaim {r : ResId} (hr : s.holder r = some p) : Spares p s (s.freeClaim p r) where
  session q _ := ⟨_, by rw [State.freeClaim_frame hr]⟩
  capture q _ := by rw [State.freeClaim_frame hr]
  claim e x hx hp := by
    rw [State.freeClaim_claim hr, if_neg (State.ne_of_holder hr hx hp)]; exact hx
  zone z y hy _ := ⟨_, by rw [State.freeClaim_frame hr]; exact hy⟩
  line k x hx hp := by
    rw [State.freeClaim_line hr, if_neg (State.ne_of_holder hr hx hp)]
    exact ⟨⟨_, _, rfl⟩, fun _ => rfl⟩

/-- A teardown takes what is the departing session's alone (R148). -/
theorem tornDown (s : State) (p : PortId) (cause : CloseCause) : Spares p s (s.tornDown p cause) where
  session q hq := ⟨_, by rw [State.tornDown_sessions]; exact get_set_of_ne _ hq _⟩
  capture q hq := by rw [State.tornDown_capture]; exact get_set_of_ne _ hq _
  claim r x hx hp := by
    rw [State.tornDown_claim, if_neg fun h => State.ne_of_holder h hx hp rfl]; exact hx
  zone z y hy hp := ⟨_, by
    rw [State.tornDown_zone]; exact Option.filter_eq_some_iff.mpr ⟨hy, decide_eq_true hp⟩⟩
  line k x hx hp := by
    rw [State.tornDown_line, if_neg fun h => State.ne_of_holder h hx hp rfl]
    exact ⟨⟨_, _, rfl⟩, fun _ => rfl⟩

/-! ## The requests -/

theorem configure (s : State) (p : PortId) (c : ChanId) (f : ChanSetup) : Spares p s (s.configure p c f) := by
  have h := (setChannel s p c ((s.channels[c]).configured f)).trans (posted _ p (toOthers p (.channelReconfigured c)))
  rw [State.configure_eq]
  split
  · exact h.trans (resynced _ p c)
  · exact h

theorem preset (s : State) (p : PortId) (c : ChanId) (count turns : Int) : Spares p s (s.preset p c count turns) := by
  rw [State.preset, State.discontinuity_eq, State.broadcast_others]
  exact ((setChannel s p c _).trans (posted _ p _)).trans (resynced _ p c)

theorem clearFault (s : State) (p : PortId) (c : ChanId) : Spares p s (s.clearFault c) := by
  rw [State.clearFault]
  split
  · rw [State.broadcast_all]; exact (setChannel s p c _).trans (posted _ p _)
  · exact refl p s

theorem takeCapture (s : State) (p : PortId) (cause : CaptureCause) (mask : Byte) :
    Spares p s (s.takeCapture p cause mask).1 := by
  rw [State.takeCapture_eq]
  exact (setCapture s p _).trans (posted _ p _)

/-- What the owning block of a request makes of the hub, HUB_RESET apart. -/
theorem effect {k : Kind} {o : State × Reply} (he : Effect p s k o) (hk : k ≠ .hubReset) (hs : OwnershipLawful s) :
    Spares p s o.1 := by
  have hown {z : ZoneId} {x : Zone} {o : Option Zone} (hz : s.zones[z] = some x) (hx : x.owner = p) :
      Spares p s ((s.setZone z o).recomputeLink x.link) := by
    obtain ⟨-, -, -, -, hlink, -⟩ := hs.1 z x hz
    exact rezoned (fun y hy => by rw [hz] at hy; cases hy; exact hx) fun l hl => hx ▸ hlink l hl
  cases he with
  | unchanged => exact refl p s
  | chanConfig c f => exact configure s p c f
  | chanPreset c count turns => exact preset s p c _ _
  | chanHome c x => exact setChannel s p c _
  | chanClearFault c => exact clearFault s p c
  | zoneCreate z c q x r hz hm hx hl =>
    refine rezoned (fun y hy => by rw [hz] at hy; cases hy) fun l hll => ?_
    exact not_not.mp fun hne => State.linkHeld_iff.mp hl ⟨l, hll, hne⟩
  | zoneArm z x r hz hx => exact hown hz hx
  | zoneDisarm z x r hz hx => exact hown hz hx
  | zoneDelete z x r hz hx => exact hown hz hx
  | capture mask => exact takeCapture s p _ mask
  | capSubscribe | capPolicy | capAck | capStatus => exact setCapture s p _
  | evtRead | evtAttn => exact setQueue s p _
  | claim e r hc => exact claimed hc _
  | release e r hh hu => exact freeClaim hh
  | outMode k f r hh hw => exact setLine hh _
  | outSet k x r hh hm => exact setLine hh _
  | openSession n r hc => exact ((setSession s p _).trans (setCapture _ p _)).trans (setQueue _ p _)
  | closeSession r => rw [State.teardown_eq]; exact tornDown s p _
  | hubReset => exact absurd rfl hk
  | await tag timeout hq => exact (setPort s p p _).trans (setSession _ p _)
  | cancel a r ha => exact (setPort s p p _).trans ((setPort _ p p _).trans (setSession _ p _))
  | portStatus r => exact setPort s p p _

/-- The handling of a request's frame, however it is answered. -/
theorem request {i : Instr} {k : Kind} {h : Head} (hi : i.request? = some (k, h)) (hk : k ≠ .hubReset)
    (hs : OwnershipLawful s) : Spares h.port s (s.request h k (requestAct i)) := by
  have hacc := frameAccepted s h.port
  have hh := State.request_handled s h k (requestAct i)
  generalize s.request h k (requestAct i) = t at hh
  cases hh with
  | discarded => exact refl _ s
  | overrun | replayed | busy => exact hacc.trans (setPort _ _ _ _)
  | declined => exact hacc.trans (answer _ _ _ _ _ _)
  | executed _ he =>
    have hown := ownershipLaw.ports (PortsOnly.frameAccepted s h.port) hs
    have heff := effect (requestAct_effect hi (s.frameAccepted h.port)) hk hown
    rw [he.2, State.execute]
    split
    · rename_i t st r ht
      rw [ht] at heff; exact hacc.trans (heff.trans (answer _ _ _ _ _ _))
    · rename_i t ht
      rw [ht] at heff; exact hacc.trans heff

end Spares

/-- Settles O60: every move that a request but HUB_RESET can make spares the other masters. -/
theorem requestsLeaveOtherMastersAlone : Obligations.RequestsLeaveOtherMastersAlone := by
  intro i k h s t hi hk hs ht
  rw [exec_request hi] at ht
  cases ht
  have hspares := (Spares.request hi hk hs).trans (Spares.notify s h.port _)
  exact ⟨fun q hq => ⟨hspares.session q hq, hspares.capture q hq⟩, hspares.claim, hspares.zone, hspares.line⟩

end Sys2Proof.Machine
end

section
/-! SUPPORT. The ends of an admitted request, said for every request at once, and the statements about the inputs and
the requests of the counting channels, settled. -/

namespace Sys2Proof.Machine

/-! ## The ends of an admitted request -/

section Admitted
variable {i : Instr} {k : Kind} {h : Head} {s t : State} {status : Status} {results : Results}

/-- An admitted request that its block refuses (R178). -/
theorem exec_of_refused (hi : i.request? = some (k, h)) (ha : Admitted s h k)
    (hact : requestAct i (s.frameAccepted h.port) = (s.frameAccepted h.port).refuse status) :
    exec i s = .next (s.refused h k status) := by
  rw [exec_request hi]
  exact congrArg _ (State.happening_request_refused ha hact)

/-- An admitted request that its block answers. -/
theorem exec_of_answered (hi : i.request? = some (k, h)) (ha : Admitted s h k)
    (hact : requestAct i (s.frameAccepted h.port) = (t, some (status, results))) :
    exec i s = .next (s.awaitsEnded (t.reply h k status results)) := by
  rw [exec_request hi]
  exact congrArg _ (State.happening_request_answered ha hact)

/-- An admitted request whose answer lengthens no queue: no AWAIT ends. -/
theorem exec_of_answered_of_no_growth (hi : i.request? = some (k, h)) (ha : Admitted s h k)
    (hact : requestAct i (s.frameAccepted h.port) = (t, some (status, results)))
    (hq : ∀ p : PortId, (t.queues[p]).records.length ≤ (s.queues[p]).records.length) :
    exec i s = .next (t.reply h k status results) := by
  rw [exec_of_answered hi ha hact,
    State.awaitsEnded_of_no_growth fun p => by rw [State.reply, State.answer_queues]; exact hq p]

/-- An admitted request whose answer leaves the queues. -/
theorem exec_of_answered_of_queues (hi : i.request? = some (k, h)) (ha : Admitted s h k)
    (hact : requestAct i (s.frameAccepted h.port) = (t, some (status, results))) (hq : t.queues = s.queues) :
    exec i s = .next (t.reply h k status results) :=
  exec_of_answered_of_no_growth hi ha hact fun _ => by rw [hq]

/-- An admitted request that waits, or that leaves the hub without an answer, and stores no record. -/
theorem exec_of_unanswered (hi : i.request? = some (k, h)) (ha : Admitted s h k)
    (hact : requestAct i (s.frameAccepted h.port) = (t, none)) (hq : t.queues = s.queues) : exec i s = .next t := by
  have hr : s.request h k (requestAct i) = t := by
    rw [State.request_of_admitted _ ha, State.execute, hact]
  exact exec_of_request hi hr hq

end Admitted

/-! ## The inputs (R12, R14 to R16) -/

theorem exec_indexEdge_of_tracked {c : ChanId} {s : State}
    (h : ¬ ((s.channels[c]).state = .counting ∧ (s.channels[c]).levels.i = false)) :
    exec (.indexEdge c) s = .next (s.setChannel c
      { s.channels[c] with levels := { (s.channels[c]).levels with i := !(s.channels[c]).levels.i } }) := by
  have he : s.indexTransition c = s.setChannel c
      { s.channels[c] with levels := { (s.channels[c]).levels with i := !(s.channels[c]).levels.i } } := by
    rw [State.indexTransition]; exact if_neg h
  exact congrArg _ ((State.happening_of_queues (f := fun t => t.indexTransition c) (by rw [he]; rfl)).trans he)

/-- Settles O16: outside COUNTING, and on a fall of I, a transition has no part after the levels. -/
theorem suspendedChannelOnlyTracks : Obligations.SuspendedChannelOnlyTracks := by
  intro c s
  refine ⟨fun hst change => ?_, fun hst => exec_indexEdge_of_tracked ?_⟩
  · have he : s.abTransition c change =
        s.setChannel c { s.channels[c] with levels := (s.channels[c]).levels.changed change } := by
      rw [State.abTransition]; exact if_neg hst
    exact congrArg _ ((State.happening_of_queues (f := fun t => t.abTransition c change) (by rw [he]; rfl)).trans he)
  · rintro ⟨h1, h2⟩
    exact hst.elim (fun h => h h1) fun h => by rw [h] at h2; cases h2

theorem State.setChannel_self (s : State) (c : ChanId) : s.setChannel c s.channels[c] = s := by
  simp only [State.setChannel, set_get_self]

/-- The mark of a rising edge of I and its record to the holder of the channel's claim (R15). -/
theorem State.markIndex_eq (s : State) (c : ChanId) :
    s.markIndex c =
      let x := s.channels[c]
      (s.setChannel c { x with mark := if x.indexMark then some ⟨x.count, x.turns, s.timestamp⟩ else x.mark }).posted
        fun p => if x.indexMark = true ∧ s.holder (chanRes c) = some p then [.indexMark c x.count x.turns] else [] := by
  rw [State.markIndex]
  dsimp only
  by_cases hm : (s.channels[c]).indexMark = true
  · rw [if_pos hm, if_pos hm]
    simp only [and_iff_right hm]
    cases hh : s.holder (chanRes c) with
    | none => simp only [reduceCtorEq, if_false, State.posted_nil]
    | some p =>
      dsimp only
      rw [State.post_eq_posted]
      exact congrArg _ (funext fun q => if_congr (by rw [Option.some.injEq, eq_comm]) rfl rfl)
  · have hn : ∀ q, ¬ ((s.channels[c]).indexMark = true ∧ s.holder (chanRes c) = some q) := fun q h => hm h.1
    rw [if_neg hm, if_neg hm]
    simp only [if_neg (hn _), State.posted_nil]
    exact (State.setChannel_self s c).symm

/-- The firing of armed homing (R16). -/
theorem State.fireHoming_of_armed {s : State} {c : ChanId} (h : (s.channels[c]).homing = true) :
    s.fireHoming c = ((s.setChannel c
      { s.channels[c] with count := 0, turns := 0, referenced := true, homing := false }).posted
        fun _ => [.homed c]).resynced c := by
  rw [State.fireHoming]
  simp only [if_pos h, State.broadcast_all, State.discontinuity_eq]

theorem State.setChannel_posted (s : State) (es : PortId → List Event) (c : ChanId) (x : Channel) :
    (s.posted es).setChannel c x = (s.setChannel c x).posted es := rfl

/-- Settles O17: the mark is stored and posted first, then homing fires on the marked channel. -/
theorem indexEdgeMarksThenHomes : Obligations.IndexEdgeMarksThenHomes := by
  intro c s hst hi x marked notice
  have hlevels : ({ x with levels := { x.levels with i := !x.levels.i } } : Channel) =
      { x with levels := { x.levels with i := true } } := by rw [show x.levels.i = false from hi]; rfl
  have hmark : (s.setChannel c { x with levels := { x.levels with i := true } }).markIndex c =
      (s.setChannel c marked).posted notice := by
    have hget : (s.setChannel c { x with levels := { x.levels with i := true } }).channels[c] =
        { x with levels := { x.levels with i := true } } := get_set_self _ _ _
    rw [State.markIndex_eq]
    simp only [hget, State.setChannel_setChannel]
    rfl
  have hrise : s.indexTransition c = ((s.setChannel c marked).posted notice).fireHoming c := by
    rw [State.indexTransition, ← hmark]
    exact (if_pos ⟨hst, hi⟩).trans (by rw [← hlevels])
  have hexec : exec (.indexEdge c) s = .next (s.awaitsEnded (s.indexTransition c)) := by
    rw [← State.notify_eq_awaitsEnded]; rfl
  have hget : ((s.setChannel c marked).posted notice).channels[c] = marked := get_set_self _ _ _
  rw [hexec, hrise]
  by_cases hh : x.homing = true
  · rw [if_pos hh, State.fireHoming_of_armed (by rw [hget]; exact hh), hget, State.setChannel_posted,
      State.setChannel_setChannel, State.posted_posted]
  · rw [if_neg hh, State.fireHoming]
    refine congrArg _ (congrArg _ (if_neg ?_))
    rw [hget]; exact hh

/-- Settles O18: the gate decides between COUNTING and HELD, and touches no other state. -/
theorem gateHoldsAndReleases : Obligations.GateHoldsAndReleases := by
  intro c s x g
  have he : exec (.gateChange c) s = .next (s.setChannel c x.gateChanged) := rfl
  rw [he]
  refine congrArg _ (congrArg _ ?_)
  rw [Channel.gateChanged]
  by_cases hu : x.gateUse = true
  · rw [if_pos hu, Channel.regated_eq]
    simp only [hu, true_and, gateState_eq, g]
    by_cases hst : x.state = .counting ∨ x.state = .held
    · have hswap : ∀ b : Bool, (if b = false then ChanState.held else .counting) =
          if b = true then .counting else .held := by decide
      rw [if_pos hst, if_pos hst, hswap]
    · rw [if_neg hst, if_neg hst]
  · rw [if_neg hu, if_neg fun h => hu h.1]

/-! ## The requests (R19, R22 to R24) -/

/-- A preset lies in the channel's ranges (R22). -/
theorem Channel.presetInRange_iff {x : Channel} {n t : Int} :
    x.presetInRange n t = true ↔ if x.modulus = 0 then t = 0 else 0 ≤ n ∧ n < x.modulus := by
  rw [Channel.presetInRange]
  split
  · exact beq_iff_eq
  · exact decide_eq_true_iff

theorem State.preset_eq (s : State) (p : PortId) (c : ChanId) (count turns : Int) :
    s.preset p c count turns =
      ((s.setChannel c
        { s.channels[c] with count := count, turns := turns, referenced := true, wrapped := false }).posted
          (toOthers p (.channelReconfigured c))).resynced c := by
  rw [State.preset, State.discontinuity_eq, State.broadcast_others]

/-- Settles O20, check by check in the order of R19 and R22. -/
theorem chanPresetLoadsThePosition : Obligations.ChanPresetLoadsThePosition := by
  intro h channel count turns s ha
  refine ⟨fun hc => exec_of_refused rfl ha (by simp only [requestAct, actChanPreset, chanOf_eq_none hc]),
    fun c hc => ?_⟩
  intro x fits
  have hfits : x.presetInRange count.toInt turns.toInt = true ↔ fits := Channel.presetInRange_iff
  have hact : requestAct (.chanPreset h channel count turns) (s.frameAccepted h.port) =
      if s.holder (chanRes c) ≠ some h.port then (s.frameAccepted h.port).refuse .notHolder
      else if x.mode = .off then (s.frameAccepted h.port).refuse .channelOff
      else if x.presetInRange count.toInt turns.toInt then
        ((s.frameAccepted h.port).preset h.port c count.toInt turns.toInt).done
      else (s.frameAccepted h.port).refuse .badArg := by
    simp only [requestAct, actChanPreset, chanOf_eq_some hc]; rfl
  by_cases hh : s.holder (chanRes c) ≠ some h.port
  · rw [if_pos hh] at hact ⊢; exact exec_of_refused rfl ha hact
  rw [if_neg hh] at hact ⊢
  by_cases hm : x.mode = .off
  · rw [if_pos hm] at hact ⊢; exact exec_of_refused rfl ha hact
  rw [if_neg hm] at hact ⊢
  by_cases hf : ¬ fits
  · rw [if_neg (mt hfits.mp hf)] at hact
    rw [if_pos hf]; exact exec_of_refused rfl ha hact
  · rw [if_pos (hfits.mpr (not_not.mp hf)), State.preset_eq] at hact
    rw [if_neg hf]; exact exec_of_answered rfl ha hact

/-- Settles O21, check by check in the order of R19, R23 and R186. -/
theorem chanHomeArmsAndCancels : Obligations.ChanHomeArmsAndCancels := by
  intro h channel cancel s ha
  refine ⟨fun hc => exec_of_refused rfl ha (by simp only [requestAct, actChanHome, chanOf_eq_none hc]), fun c hc => ?_⟩
  intro x
  have hact : requestAct (.chanHome h channel cancel) (s.frameAccepted h.port) =
      if s.holder (chanRes c) ≠ some h.port then (s.frameAccepted h.port).refuse .notHolder
      else if x.state = .off then (s.frameAccepted h.port).refuse .channelOff
      else if x.state = .fault then (s.frameAccepted h.port).refuse .channelFault
      else
        match yesNoOf cancel with
        | none => (s.frameAccepted h.port).refuse .badArg
        | some b => ((s.frameAccepted h.port).setChannel c { x with homing := !b }).done := by
    simp only [requestAct, actChanHome, chanOf_eq_some hc]; rfl
  by_cases hh : s.holder (chanRes c) ≠ some h.port
  · rw [if_pos hh] at hact ⊢; exact exec_of_refused rfl ha hact
  rw [if_neg hh] at hact ⊢
  by_cases ho : x.state = .off
  · rw [if_pos ho] at hact ⊢; exact exec_of_refused rfl ha hact
  rw [if_neg ho] at hact ⊢
  by_cases hf : x.state = .fault
  · rw [if_pos hf] at hact ⊢; exact exec_of_refused rfl ha hact
  rw [if_neg hf, yesNoOf_eq] at hact
  rw [if_neg hf]
  by_cases hb : 2 ≤ cancel.toNat
  · rw [if_neg (by omega)] at hact
    rw [if_pos hb]; exact exec_of_refused rfl ha hact
  · have hbit : (!decide (cancel.toNat = 1)) = decide (cancel.toNat = 0) := by
      rw [← decide_not]; exact decide_eq_decide.mpr (by omega)
    rw [if_pos (by omega)] at hact
    rw [if_neg hb, ← hbit]
    exact exec_of_answered_of_queues rfl ha hact rfl

/-- Settles O22: the channel recovers by its gate, or, in another state, is only answered. -/
theorem chanClearFaultRecovers : Obligations.ChanClearFaultRecovers := by
  intro h channel s ha
  refine ⟨fun hc => exec_of_refused rfl ha (by simp only [requestAct, actChanClearFault, chanOf_eq_none hc]),
    fun c hc => ?_⟩
  intro x
  have hact : requestAct (.chanClearFault h channel) (s.frameAccepted h.port) =
      if s.holder (chanRes c) ≠ some h.port then (s.frameAccepted h.port).refuse .notHolder
      else ((s.frameAccepted h.port).clearFault c).done := by
    simp only [requestAct, actChanClearFault, chanOf_eq_some hc]; rfl
  by_cases hh : s.holder (chanRes c) ≠ some h.port
  · rw [if_pos hh] at hact ⊢; exact exec_of_refused rfl ha hact
  rw [if_neg hh, State.clearFault] at hact
  rw [if_neg hh]
  by_cases hf : x.state = .fault
  · rw [if_pos (show ((s.frameAccepted h.port).channels[c]).state = .fault from hf), State.broadcast_all,
      gateState_eq] at hact
    rw [if_pos hf]; exact exec_of_answered rfl ha hact
  · rw [if_neg (show ((s.frameAccepted h.port).channels[c]).state ≠ .fault from hf)] at hact
    rw [if_neg hf]; exact exec_of_answered_of_queues rfl ha hact rfl

end Sys2Proof.Machine
end

section
/-! SUPPORT. The statements about the owner's zone requests and about captures, settled. -/

namespace Sys2Proof.Machine

/-! ## The zone that a request names (R53) -/

theorem zoneOf_eq_some {b : Byte} {z : ZoneId} (h : b.toNat = z) : zoneOf b = some z := by
  rw [zoneOf, dif_pos (h ▸ z.isLt)]
  exact congrArg some (Fin.ext h)

theorem State.zoneNamed_of_missing {s : State} {b : Byte} (h : ∀ z : ZoneId, b.toNat = z → s.zones[z] = none) :
    s.zoneNamed b = none := by
  rw [State.zoneNamed, zoneOf]
  by_cases hb : b.toNat < 32
  · rw [dif_pos hb]
    simp only [h ⟨b.toNat, hb⟩ rfl, Option.map_none]
  · rw [dif_neg hb]

theorem State.zoneNamed_of_zone {s : State} {b : Byte} {z : ZoneId} (hb : b.toNat = z) {y : Zone}
    (hy : s.zones[z] = some y) : s.zoneNamed b = some (z, y) := by
  rw [State.zoneNamed, zoneOf_eq_some hb]
  simp only [hy, Option.map_some]

theorem State.withOwnZone_of_missing {s : State} {p : PortId} {b : Byte} {f : ZoneId → Zone → State × Reply}
    (h : ∀ z : ZoneId, b.toNat = z → s.zones[z] = none) : s.withOwnZone p b f = s.refuse .noSuchZone := by
  rw [State.withOwnZone, State.zoneNamed_of_missing h]

theorem State.withOwnZone_of_zone {s : State} {p : PortId} {b : Byte} {f : ZoneId → Zone → State × Reply} {z : ZoneId}
    (hb : b.toNat = z) {y : Zone} (hy : s.zones[z] = some y) :
    s.withOwnZone p b f = if y.owner ≠ p then s.refuse .notOwner else f z y := by
  rw [State.withOwnZone, State.zoneNamed_of_zone hb hy, ite_not]

/-- Settles O30: each request on a zone of the requester, behind the checks of R53. -/
theorem ownersArmDisarmAndDelete : Obligations.OwnersArmDisarmAndDelete := by
  intro h b s missing put
  have hq (z : ZoneId) (o : Option Zone) (link : Option Link) : ((put z o).recomputeLink link).queues = s.queues :=
    (State.recomputeLink_queues _ _).trans rfl
  refine ⟨fun ha => ⟨fun hm => exec_of_refused rfl ha (State.withOwnZone_of_missing hm), fun z hz y hy => ?_⟩,
    fun ha => ⟨fun hm => exec_of_refused rfl ha (State.withOwnZone_of_missing hm), fun z hz y hy => ?_⟩,
    fun ha => ⟨fun hm => exec_of_refused rfl ha (State.withOwnZone_of_missing hm), fun z hz y hy => ?_⟩⟩
  · have hact : requestAct (.zoneArm h b) (s.frameAccepted h.port) = _ :=
      State.withOwnZone_of_zone (s := s.frameAccepted h.port) hz hy
    by_cases ho : y.owner ≠ h.port
    · rw [if_pos ho] at hact ⊢; exact exec_of_refused rfl ha hact
    rw [if_neg ho] at hact ⊢
    by_cases harm : y.armed = true
    · rw [if_pos harm] at hact ⊢; exact exec_of_answered_of_queues rfl ha hact rfl
    · rw [if_neg harm] at hact ⊢; exact exec_of_answered_of_queues rfl ha hact (hq z _ _)
  · have hact : requestAct (.zoneDisarm h b) (s.frameAccepted h.port) = _ :=
      State.withOwnZone_of_zone (s := s.frameAccepted h.port) hz hy
    by_cases ho : y.owner ≠ h.port
    · rw [if_pos ho] at hact ⊢; exact exec_of_refused rfl ha hact
    rw [if_neg ho] at hact ⊢
    by_cases harm : y.armed = true
    · rw [if_pos harm] at hact ⊢; exact exec_of_answered_of_queues rfl ha hact (hq z _ _)
    · rw [if_neg harm] at hact ⊢; exact exec_of_answered_of_queues rfl ha hact rfl
  · have hact : requestAct (.zoneDelete h b) (s.frameAccepted h.port) = _ :=
      State.withOwnZone_of_zone (s := s.frameAccepted h.port) hz hy
    by_cases ho : y.owner ≠ h.port
    · rw [if_pos ho] at hact ⊢; exact exec_of_refused rfl ha hact
    · rw [if_neg ho] at hact ⊢; exact exec_of_answered_of_queues rfl ha hact (hq z _ _)

/-! ## Captures on request (R71 to R73, R75) -/

theorem State.setCapture_self (s : State) (p : PortId) : s.setCapture p s.capture[p] = s := by
  simp only [State.setCapture, set_get_self]

/-- A request meets a full ring under KEEP_OLDEST in vain, and counts no loss (R73). -/
theorem CaptureState.meets_request_full {x : CaptureState} {r : CaptureRecord} (hr : r.cause = .request)
    (hf : 4 ≤ x.ring.length ∧ x.policy = .keepOldest) : x.meets r = (x, []) := by
  rw [CaptureState.meets, if_neg (by omega), if_neg (by rw [hf.2]; simp), if_pos hr]

/-- A request's capture that a full ring under KEEP_OLDEST does not take leaves the hub (R73). -/
theorem State.takeCapture_request_full {s : State} {p : PortId} {mask : Byte}
    (hf : 4 ≤ (s.capture[p]).ring.length ∧ (s.capture[p]).policy = .keepOldest) :
    s.takeCapture p .request mask = (s, none) := by
  rw [State.takeCapture_eq, CaptureState.meets_request_full rfl hf,
    if_neg (by rw [hf.2]; simpa using hf.1), State.setCapture_self]
  simp only [ite_self, State.posted_nil]

/-- A capture that its ring takes is stored under the next number (R71, R72). -/
theorem State.takeCapture_stored {s : State} {p : PortId} {cause : CaptureCause} {mask : Byte}
    (hroom : (s.capture[p]).ring.length < 4 ∨ (s.capture[p]).policy = .keepNewest) :
    s.takeCapture p cause mask =
      ((s.setCapture p ((s.capture[p]).meets (s.captureNow cause mask)).1).posted fun q =>
          if q = p then ((s.capture[p]).meets (s.captureNow cause mask)).2 else [],
        some (s.capture[p]).seqCounter) := by
  rw [State.takeCapture_eq, if_pos hroom]

/-- Settles O31: the ring takes the capture of this instant, unless it is full and keeps its oldest. -/
theorem captureStoresOrIsFull : Obligations.CaptureStoresOrIsFull := by
  intro h mask s ha x ring
  by_cases hm : mask = 0
  · rw [if_pos hm]
    exact exec_of_refused rfl ha (if_pos hm)
  rw [if_neg hm]
  have hact : requestAct (.capture h mask) (s.frameAccepted h.port) =
      match (s.frameAccepted h.port).takeCapture h.port .request mask with
      | (t, some seq) => t.doneWith (.captureSeq seq)
      | (t, none) => t.refuse .full := if_neg hm
  by_cases hf : 4 ≤ x.ring.length ∧ x.policy = .keepOldest
  · rw [State.takeCapture_request_full (s := s.frameAccepted h.port) hf] at hact
    rw [if_pos hf]; exact exec_of_refused rfl ha hact
  · have hroom : x.ring.length < 4 ∨ x.policy = .keepNewest := by
      cases hp : x.policy with
      | keepNewest => exact .inr rfl
      | keepOldest => exact .inl (Nat.lt_of_not_le fun hl => hf ⟨hl, hp⟩)
    rw [State.takeCapture_stored (s := s.frameAccepted h.port) hroom] at hact
    rw [if_neg hf]
    exact exec_of_answered rfl ha (hact.trans rfl)

/-! ## The capture lines (R76, R77) -/

/-- The capture that an edge of a capture line gives a session, by its subscription to the line (R77). -/
def State.edgeCapture (s : State) (n : CapId) (rising : Bool) (p : PortId) : Option CaptureRecord :=
  ((s.capture[p]).subs[n]).bind fun u => if u.edge.accepts rising then some (s.captureNow (.line n) u.mask) else none

/-- A session's ring after an edge of a capture line, and the events posted. -/
def State.edgeRing (s : State) (n : CapId) (rising : Bool) (p : PortId) : CaptureState × List Event :=
  ((s.edgeCapture n rising p).map (s.capture[p]).meets).getD (s.capture[p], [])

theorem State.deliverEdge_eq (s : State) (n : CapId) (rising : Bool) (p : PortId) :
    s.deliverEdge n rising p = (s.setCapture p (s.edgeRing n rising p).1).posted
      fun q => if q = p then (s.edgeRing n rising p).2 else [] := by
  have hnone : s = (s.setCapture p s.capture[p]).posted fun q => if q = p then [] else [] := by
    simp only [ite_self, State.posted_nil, State.setCapture_self]
  rw [State.deliverEdge, State.edgeRing, State.edgeCapture]
  cases hu : (s.capture[p]).subs[n] with
  | none => exact hnone
  | some u =>
    by_cases he : u.edge.accepts rising = true
    · simp only [Option.bind_some, if_pos he, State.takeCapture_eq, Option.map_some, Option.getD_some]
    · simp only [Option.bind_some, if_neg he, Option.map_none, Option.getD_none]
      exact hnone

/-- The delivery of an edge to the sessions of a list, each ring meeting its capture whatever the others do (R77). -/
theorem State.deliverEdge_foldl (n : CapId) (rising : Bool) (l : List PortId) (s : State) (hl : l.Nodup) :
    l.foldl (fun t p => t.deliverEdge n rising p) s =
      ({ s with capture := Vector.ofFn fun p => if p ∈ l then (s.edgeRing n rising p).1 else s.capture[p] }).posted
        fun p => if p ∈ l then (s.edgeRing n rising p).2 else [] := by
  induction l generalizing s with
  | nil => simp
  | cons a l ih =>
    obtain ⟨ha, hl⟩ := List.nodup_cons.mp hl
    have hring : ∀ p, p ≠ a → (s.deliverEdge n rising a).edgeRing n rising p = s.edgeRing n rising p := by
      intro p hp
      have hc : (s.deliverEdge n rising a).capture[p] = s.capture[p] := by
        rw [State.deliverEdge_eq]; exact get_set_of_ne _ hp _
      have hn : ∀ mask, (s.deliverEdge n rising a).captureNow (.line n) mask = s.captureNow (.line n) mask := by
        intro mask; rw [State.deliverEdge_eq]; rfl
      simp only [State.edgeRing, State.edgeCapture, hc, hn]
    have hcapture : (Vector.ofFn fun p => if p ∈ l then ((s.deliverEdge n rising a).edgeRing n rising p).1
          else (s.deliverEdge n rising a).capture[p]) =
        Vector.ofFn fun p => if p ∈ a :: l then (s.edgeRing n rising p).1 else s.capture[p] := by
      congr 1; funext p
      by_cases hp : p = a
      · subst hp
        rw [if_neg ha, if_pos (by simp), State.deliverEdge_eq]
        exact get_set_self _ _ _
      · rw [hring p hp, State.deliverEdge_eq]
        simp only [List.mem_cons, hp, false_or]
        exact congrArg _ (get_set_of_ne _ hp _)
    have hevents : (fun p => (if p = a then (s.edgeRing n rising a).2 else []) ++
          if p ∈ l then ((s.deliverEdge n rising a).edgeRing n rising p).2 else []) =
        fun p => if p ∈ a :: l then (s.edgeRing n rising p).2 else [] := by
      funext p
      by_cases hp : p = a
      · subst hp; rw [if_neg ha]; simp
      · rw [hring p hp]; simp [hp]
    rw [List.foldl_cons, ih _ hl, hcapture, ← hevents, ← State.posted_posted]
    rw [State.deliverEdge_eq]
    rfl

/-- An edge of a capture line for all sessions at once. -/
theorem State.lineEdge_eq (s : State) (n : CapId) :
    s.lineEdge n =
      ({ s with
        capLevels := s.capLevels.set n (!s.capLevels[n])
        capture := Vector.ofFn fun p => (s.edgeRing n (!s.capLevels[n]) p).1 } : State).posted
        fun p => (s.edgeRing n (!s.capLevels[n]) p).2 := by
  have hmem : ∀ p : PortId, p ∈ portIds := by decide
  have hring : ∀ p, (s.setCapLevel n (!s.capLevels[n])).edgeRing n (!s.capLevels[n]) p =
      s.edgeRing n (!s.capLevels[n]) p := fun _ => rfl
  rw [State.lineEdge, State.deliverEdge_foldl n _ portIds _ (by decide)]
  simp only [hmem, if_true, hring]
  rfl

/-- Settles O32: the edge is delivered to each session by its own subscription. -/
theorem lineEdgeReachesSubscribers : Obligations.LineEdgeReachesSubscribers := by
  intro n s rising taken t
  have haccepts : ∀ e : SubEdge, e.accepts rising = true ↔
      e = .both ∨ (e = .rising ∧ rising = true) ∨ (e = .falling ∧ rising = false) := by
    intro e; cases e <;> simp [SubEdge.accepts]
  have htaken : ∀ p, s.edgeCapture n rising p = taken p := by
    intro p
    simp only [taken, State.edgeCapture]
    cases (s.capture[p]).subs[n] with
    | none => rfl
    | some u => exact if_congr (haccepts u.edge) rfl rfl
  have hexec : exec (.captureLineEdge n) s = .next (s.awaitsEnded (s.lineEdge n)) := by
    rw [← State.notify_eq_awaitsEnded]; rfl
  rw [hexec, State.lineEdge_eq]
  simp only [State.edgeRing, show ∀ p, s.edgeCapture n (!s.capLevels[n]) p = taken p from htaken]
  refine congrArg _ (congrArg _ (congrArg₂ State.posted ?_ (funext fun p => ?_)))
  · refine congrArg (fun v => ({ s with capLevels := s.capLevels.set n rising, capture := v } : State)) ?_
    refine congrArg Vector.ofFn (funext fun p => ?_)
    cases taken p <;> rfl
  · cases taken p <;> rfl

/-! ## The capture requests (R79, R80, R82, R84) -/

theorem capOf_eq_some {b : Byte} {n : CapId} (h : b.toNat = n) : capOf b = some n := by
  rw [capOf, dif_pos (h ▸ n.isLt)]
  exact congrArg some (Fin.ext h)

theorem capOf_eq_none {b : Byte} (h : 2 ≤ b.toNat) : capOf b = none := dif_neg (Nat.not_lt.mpr h)

theorem edgeOf_eq_none {b : Byte} (h : b.toNat = 0 ∨ 4 ≤ b.toNat) : edgeOf b = none := by
  have h1 : b ≠ 1 := by rintro rfl; simp at h
  have h2 : b ≠ 2 := by rintro rfl; simp at h
  have h3 : b ≠ 3 := by rintro rfl; simp at h
  rw [edgeOf, if_neg h1, if_neg h2, if_neg h3]

/-- Settles O33: the subscription of a known line to a known edge is replaced. -/
theorem capSubscribeReplacesTheSubscription : Obligations.CapSubscribeReplacesTheSubscription := by
  intro h line edge mask s ha i x
  refine ⟨fun hbad => exec_of_refused rfl ha ?_, fun n hn e he => ?_⟩
  · simp only [i, requestAct, actCapSubscribe]
    rcases hbad with hl | he
    · simp only [capOf_eq_none hl]
    · rw [edgeOf_eq_none he]
      cases capOf line <;> rfl
  · have hact : requestAct i (s.frameAccepted h.port) =
        ((s.frameAccepted h.port).setCapture h.port
          { x with subs := x.subs.set n (if mask = 0 then none else some ⟨e, mask⟩) }).done := by
      simp only [i, requestAct, actCapSubscribe, capOf_eq_some hn, show edgeOf edge = some e from he]
      rfl
    exact exec_of_answered_of_queues rfl ha hact rfl

/-- Settles O34: a policy in its codes is stored. -/
theorem capPolicySetsThePolicy : Obligations.CapPolicySetsThePolicy := by
  intro h policy s ha
  by_cases hp : 2 ≤ policy.toNat
  · have h0 : policy ≠ 0 := by rintro rfl; simp at hp
    have h1 : policy ≠ 1 := by rintro rfl; simp at hp
    rw [if_pos hp]
    exact exec_of_refused rfl ha (by simp only [requestAct, actCapPolicy, policyOf, if_neg h0, if_neg h1])
  · have hof : policyOf policy = some (if policy = 0 then .keepOldest else .keepNewest) := by
      obtain rfl | rfl : policy = 0 ∨ policy = 1 := by bv_omega
      · rfl
      · rfl
    rw [if_neg hp]
    exact exec_of_answered_of_queues rfl ha (by simp only [requestAct, actCapPolicy, hof]; rfl) rfl

/-- Settles O35: the three answers of R82, by the ring and the number. -/
theorem capAckRemovesTheOldest : Obligations.CapAckRemovesTheOldest := by
  intro h seq s ha x
  have hact : requestAct (.capAck h seq) (s.frameAccepted h.port) =
      match x.ring with
      | [] => (s.frameAccepted h.port).refuse .empty
      | r :: rest =>
        if r.seq = seq then
          ((s.frameAccepted h.port).setCapture h.port { x with ring := rest }).doneWith (.recordsLeft rest.length)
        else (s.frameAccepted h.port, some (.stale, .oldestSeq r.seq)) := rfl
  cases hr : x.ring with
  | nil => rw [hr] at hact; exact exec_of_refused rfl ha hact
  | cons r rest =>
    rw [hr] at hact
    dsimp only at hact ⊢
    by_cases hq : r.seq = seq
    · rw [if_pos hq] at hact ⊢; exact exec_of_answered_of_queues rfl ha hact rfl
    · rw [if_neg hq] at hact ⊢; exact exec_of_answered_of_queues rfl ha hact rfl

/-- Settles O36: the report is of the ring before the losses are cleared. -/
theorem capStatusReportsAndClearsLosses : Obligations.CapStatusReportsAndClearsLosses := by
  intro h s ha
  exact exec_of_answered_of_queues (i := .capStatus h) rfl ha rfl rfl

end Sys2Proof.Machine
end

section
/-! SUPPORT. The statements about the event queues, the claim table and the pulse timers, settled. -/

namespace Sys2Proof.Machine

/-! ## The event queues (R97 to R99, R101, R102) -/

/-- An admitted request of a kind that a CLOSED session does not pass comes from an OPEN one (R139). -/
theorem Admitted.isOpen {s : State} {h : Head} {k : Kind} (ha : Admitted s h k)
    (hk : k ∉ [Kind.openSession, .ident, .portStatus]) : (s.sessions[h.port]).isOpen = true := by
  obtain ⟨-, -, -, -, -, hpass⟩ := ha
  by_contra ho
  rw [if_neg ho] at hpass
  exact hk (by simpa using hpass)

/-- The frame of a request leaves its session OPEN or CLOSED. -/
theorem State.frameAccepted_isOpen (s : State) (p : PortId) :
    ((s.frameAccepted p).sessions[p]).isOpen = (s.sessions[p]).isOpen := by
  rw [State.frameAccepted_session, Session.restarted_isOpen]

/-- What reading n records leaves of the queue of an OPEN session: an OVERFLOW record finds room behind records that
were removed (R97). -/
theorem EventQueue.readOut_attend {q : EventQueue} (hlen : q.records.length ≤ 16) (n : Nat) (now : Word) :
    (q.readOut true n now).attend true =
      let lossy := q.records.take n ≠ [] ∧ q.overflow ≠ 0
      let after := if lossy then q.records.drop n ++ [⟨.overflow q.overflow, now⟩] else q.records.drop n
      { q with
        records := after
        overflow := if lossy then 0 else q.overflow
        attn := q.enabled && !after.isEmpty } := by
  rw [EventQueue.readOut]
  by_cases hl : q.records.take n ≠ [] ∧ q.overflow ≠ 0
  · have hroom : (q.records.drop n).length < Config.queueSize := by
      have hn : n ≠ 0 := fun e => hl.1 (by rw [e, List.take_zero])
      have hne : q.records.length ≠ 0 := fun e => hl.1 (by rw [List.length_eq_zero_iff.mp e, List.take_nil])
      simp only [List.length_drop, Config.queueSize]; omega
    rw [if_pos hl.symm, EventQueue.store, if_pos hroom]
    simp only [if_pos hl]
    rfl
  · rw [if_neg fun h => hl h.symm]
    simp only [if_neg hl]
    rfl

/-- Reading does not lengthen a queue: what is stored takes the place of what was removed. -/
theorem EventQueue.length_readOut_le {q : EventQueue} (hlen : q.records.length ≤ 16) (n : Nat) (now : Word) :
    ((q.readOut true n now).attend true).records.length ≤ q.records.length := by
  rw [EventQueue.readOut_attend hlen]
  dsimp only
  split
  · rename_i hl
    have hn : n ≠ 0 := fun e => hl.1 (by rw [e, List.take_zero])
    have hne : q.records.length ≠ 0 := fun e => hl.1 (by rw [List.length_eq_zero_iff.mp e, List.take_nil])
    simp only [List.length_append, List.length_drop, List.length_singleton]; omega
  · rw [List.length_drop]; omega

/-- Settles O37: the queue after the read is attended to in an OPEN session, and has not grown. -/
theorem evtReadRemovesAndReportsOverflow : Obligations.EvtReadRemovesAndReportsOverflow := by
  intro h n s ha hlen q read left lossy after
  by_cases hn : n.toNat = 0 ∨ 9 ≤ n.toNat
  · rw [if_pos hn]
    exact exec_of_refused rfl ha (if_pos hn)
  · rw [if_neg hn]
    have ho : ((s.frameAccepted h.port).sessions[h.port]).isOpen = true :=
      (State.frameAccepted_isOpen s h.port).trans (ha.isOpen (by decide))
    have hact : requestAct (.evtRead h n) (s.frameAccepted h.port) =
        ((s.frameAccepted h.port).setQueue h.port ((q.readOut true n.toNat s.timestamp).attend true)).doneWith
          (.events read ((q.readOut true n.toNat s.timestamp).attend true).records.length) := by
      rw [← ho]; exact if_neg hn
    have hgrow : ∀ p : PortId, ((((s.frameAccepted h.port).setQueue h.port
        ((q.readOut true n.toNat s.timestamp).attend true)).queues[p]).records).length ≤
          (s.queues[p]).records.length :=
      forall_get_set (Q := fun p (x : EventQueue) => x.records.length ≤ (s.queues[p]).records.length)
        (EventQueue.length_readOut_le hlen _ _) fun _ => le_refl _
    rw [exec_of_answered_of_no_growth rfl ha hact hgrow, EventQueue.readOut_attend hlen]
    rfl

/-- Settles O38: a known enable is stored and the line follows. -/
theorem evtAttnSetsTheEnable : Obligations.EvtAttnSetsTheEnable := by
  intro h onOff s ha q on
  have ho : ((s.frameAccepted h.port).sessions[h.port]).isOpen = true :=
    (State.frameAccepted_isOpen s h.port).trans (ha.isOpen (by decide))
  by_cases hb : 2 ≤ onOff.toNat
  · rw [if_pos hb]
    refine exec_of_refused rfl ha ?_
    simp only [requestAct, actEvtAttn, yesNoOf_eq, if_neg (Nat.not_le.mpr hb)]
  · have hon : yesNoOf onOff = some on := by
      obtain rfl | rfl : onOff = 0 ∨ onOff = 1 := by bv_omega
      · rfl
      · rfl
    have hact : requestAct (.evtAttn h onOff) (s.frameAccepted h.port) =
        ((s.frameAccepted h.port).setQueue h.port { q with enabled := on, attn := on && !q.records.isEmpty }).doneWith
          (.attention on q.records.length) := by
      simp only [requestAct, actEvtAttn, hon, ho]
      rfl
    have hgrow : ∀ p : PortId, ((((s.frameAccepted h.port).setQueue h.port
        { q with enabled := on, attn := on && !q.records.isEmpty }).queues[p]).records).length ≤
          (s.queues[p]).records.length :=
      forall_get_set (Q := fun p (x : EventQueue) => x.records.length ≤ (s.queues[p]).records.length)
        (le_refl _) fun _ => le_refl _
    rw [if_neg hb]
    exact exec_of_answered_of_no_growth rfl ha hact hgrow

/-! ## The claim table (R107, R109, R111 to R113, R122, R130) -/

theorem resOf_eq_some {b : Byte} {r : ResId} (h : b.toNat = r) : resOf b = some r := by
  rw [resOf, dif_pos (h ▸ r.isLt)]
  exact congrArg some (Fin.ext h)

theorem resOf_eq_none {b : Byte} (h : 14 ≤ b.toNat) : resOf b = none := dif_neg (Nat.not_lt.mpr h)

/-- A line driven INACTIVE, its pin at the inactive level of its polarity (R120). -/
theorem OutLine.driven_inactive (l : OutLine) :
    l.driven .inactive =
      { l with
        drive := .inactive
        pin := match l.polarity with
          | .activeHigh => false
          | .activeLow => true } := by
  rw [OutLine.driven]
  cases l.polarity <;> rfl

/-- The drive of the line of a claimed resource, said for the whole table (R122). -/
theorem State.claimedDrive_eq (s : State) (r : ResId) :
    s.claimedDrive r = { s with
      lines := Vector.ofFn fun k => if lineRes k = r then (s.lines[k]).driven .inactive else s.lines[k] } := by
  have hl : (s.claimedDrive r).lines =
      Vector.ofFn fun k => if lineRes k = r then (s.lines[k]).driven .inactive else s.lines[k] := by
    ext i hi : 1
    exact (State.claimedDrive_line s r ⟨i, hi⟩).trans (by simp)
  rw [State.claimedDrive_frame, hl]

/-- Settles O39: by the entry that the resource names. -/
theorem claimTakesAFreeEntry : Obligations.ClaimTakesAFreeEntry := by
  intro h resource s ha i t
  refine ⟨fun hr => exec_of_refused rfl ha ?_, fun r hr => ?_⟩
  · simp only [i, requestAct, actClaim, resOf_eq_none hr]
  have hact : requestAct i t =
      match s.claims[r] with
      | some x => if x.holder = h.port then t.doneWith (.claimed r x.stamp) else (t, some (.held, .holder x.holder))
      | none => ((t.setClaim r (some ⟨h.port, s.timestamp⟩)).claimedDrive r).doneWith (.claimed r s.timestamp) := by
    simp only [i, requestAct, actClaim, resOf_eq_some hr]
    rfl
  refine ⟨fun x hx hh => ?_, fun x hx hh => ?_, fun hx => ?_⟩
  · simp only [show s.claims[r] = some x from hx, if_neg hh] at hact
    exact exec_of_answered_of_queues rfl ha hact rfl
  · simp only [show s.claims[r] = some x from hx, if_pos hh] at hact
    exact exec_of_answered_of_queues rfl ha hact rfl
  · simp only [hx, State.claimedDrive_eq, OutLine.driven_inactive] at hact
    exact exec_of_answered_of_queues rfl ha hact rfl

/-- The use check of R111: a zone, of any owner, links to the line of the resource. -/
theorem State.releaseInUse_iff {s : State} {r : ResId} :
    s.releaseInUse r = true ↔ ∃ z : ZoneId, ∃ y ∈ s.zones[z], ∃ l ∈ y.link, lineRes l.line = r := by
  constructor
  · intro hu
    rw [State.releaseInUse] at hu
    split at hu
    · rename_i k hk
      rw [State.zonesLinked] at hu
      simp only [List.any_eq_true, Vector.mem_toList_iff, Option.any_eq_true, beq_iff_eq] at hu
      obtain ⟨o, ho, y, hy, l, hl, hlk⟩ := hu
      obtain ⟨i, hi, rfl⟩ := Vector.mem_iff_getElem.mp ho
      exact ⟨⟨i, hi⟩, y, hy, l, hl, by rw [hlk]; exact (resLine_eq r k).mp hk⟩
    · cases hu
  · rintro ⟨z, y, hy, l, hl, rfl⟩
    exact State.releaseInUse_of_link hy hl

/-- The freeing of an entry with its line, and its notice to the others (R112, R113, R130). -/
theorem State.freeClaim_eq_posted (s : State) (p : PortId) (r : ResId) :
    s.freeClaim p r = ({ s with
      claims := s.claims.set r none
      lines := Vector.ofFn fun k => if lineRes k = r then OutLine.defaults (s.lines[k]).safe else s.lines[k] } :
        State).posted (toOthers p (.claimFreed r)) := by
  rw [State.freeClaim, State.broadcast_others, State.releaseLine_eq]
  rfl

/-- Settles O40, check by check in the order of R111. -/
theorem releaseFreesTheEntry : Obligations.ReleaseFreesTheEntry := by
  intro h resource s ha i
  refine ⟨fun hr => exec_of_refused rfl ha ?_, fun r hr => ?_⟩
  · simp only [i, requestAct, actRelease, resOf_eq_none hr]
  intro linked
  have hlinked : (s.frameAccepted h.port).releaseInUse r = true ↔ linked := State.releaseInUse_iff
  have hact : requestAct i (s.frameAccepted h.port) =
      if s.holder r ≠ some h.port then (s.frameAccepted h.port).refuse .notHolder
      else if (s.frameAccepted h.port).releaseInUse r then (s.frameAccepted h.port).refuse .inUse
      else ((s.frameAccepted h.port).freeClaim h.port r).done := by
    simp only [i, requestAct, actRelease, resOf_eq_some hr]
    rfl
  by_cases hh : s.holder r ≠ some h.port
  · rw [if_pos hh] at hact ⊢; exact exec_of_refused rfl ha hact
  rw [if_neg hh] at hact ⊢
  by_cases hl : linked
  · rw [if_pos (hlinked.mpr hl)] at hact
    rw [if_pos hl]; exact exec_of_refused rfl ha hact
  · rw [if_neg (mt hlinked.mp hl), State.freeClaim_eq_posted] at hact
    rw [if_neg hl]; exact exec_of_answered rfl ha hact

/-! ## The pulse timers (R128) -/

/-- Settles O43: a due pulse timer drives its line INACTIVE. -/
theorem pulseTimerExpiryEndsThePulse : Obligations.PulseTimerExpiryEndsThePulse := by
  intro k s o
  have he : exec (.pulseTimerExpiry k) s =
      .next (if o.timer = some 0 then s.setLine k (({ o with timer := none } : OutLine).driven .inactive) else s) := rfl
  rw [he]
  by_cases ht : o.timer = some 0
  · rw [if_pos ht, if_pos ht, OutLine.driven_inactive]
    rfl
  · rw [if_neg ht, if_neg ht]

end Sys2Proof.Machine
end

section
/-! SUPPORT. The statements about the step, the resets, the time base and the requests that read, settled. -/

namespace Sys2Proof.Machine

/-! ## The machine and its resets -/

/-- Settles O1: the step by the queue of commands. -/
theorem stepRunsTheFrontCommand : Obligations.StepRunsTheFrontCommand := by
  refine ⟨fun c rest s h => ?_, fun s h => ?_⟩
  · rw [step, h]; rfl
  · rw [step, h]

/-- Settles O3, record by record. -/
theorem powerOnResetGivesTheResetValues : Obligations.PowerOnResetGivesTheResetValues := by
  refine ⟨fun pins s => ⟨s.poweredOn pins, rfl, rfl, fun c => ?_, fun z => ?_, fun p => ?_, fun n => ?_, fun p => ?_,
    fun r => ?_, fun k => ?_, fun p => ?_, fun p => ?_, rfl⟩, fun s => ?_⟩
  · exact (Vector.getElem_ofFn ..).trans rfl
  · exact Vector.getElem_replicate ..
  · exact (Vector.getElem_replicate ..).trans rfl
  · exact Vector.getElem_ofFn ..
  · exact (Vector.getElem_replicate ..).trans rfl
  · exact Vector.getElem_replicate ..
  · exact (Vector.getElem_ofFn ..).trans rfl
  · exact (Vector.getElem_replicate ..).trans rfl
  · exact (Vector.getElem_ofFn ..).trans rfl
  · rfl

theorem State.reset_port (p : PortId) : State.reset.ports[p] = Port.atReset false := Vector.getElem_replicate ..

/-- Settles O4: the laws of the tables are decided at the reset values, and nothing is cached, sent or waiting. -/
theorem resetIsLawful : Obligations.ResetIsLawful := by
  refine ⟨⟨by decide +kernel, ⟨by decide +kernel, by decide +kernel⟩, by decide +kernel, by decide +kernel,
    by decide +kernel, by decide +kernel⟩, fun p => ?_⟩
  rw [State.reset_port]
  exact ⟨fun r hr => (nomatch hr), fun r hr => (nomatch hr), fun r hr => (nomatch hr)⟩

/-! ## The time base -/

/-- Settles O23: each table is advanced row by row. -/
theorem incrementAdvancesEveryTimer : Obligations.IncrementAdvancesEveryTimer := by
  intro s
  refine ⟨s.increment, rfl, ?_, fun k => ?_, fun p => ?_, fun p => ?_, rfl⟩
  · rw [show s.increment.timestamp = s.timestamp + 1 from rfl, BitVec.toNat_add]
    rfl
  · exact mapRows_get _ _ _ _
  · refine (mapRows_get _ _ _ _).trans ?_
    cases (s.sessions[p]).timer <;> rfl
  · exact mapRows_get _ _ _ _

/-! ## The requests that read (R25, R34, R60, R61, R81, R115, R134, R176) -/

theorem lineOf_eq_none_of_toNat {b : Byte} (h : 6 ≤ b.toNat) : lineOf b = none := lineOf_eq_none (by omega)

/-- Settles O24, request by request. -/
theorem readingRequestsReport : Obligations.ReadingRequestsReport := by
  intro h b s answered
  refine ⟨fun ha => ⟨fun hb => ?_, fun c hc => ?_⟩, fun ha => ?_, fun ha => ⟨fun hm => ?_, fun z hz x hx => ?_⟩,
    fun ha => ?_, fun ha => ?_, fun ha => ?_, fun ha => ⟨fun hb => ?_, fun k hk => ?_⟩, fun ha => ?_⟩
  · exact exec_of_refused rfl ha (by simp only [requestAct, actChanRead, chanOf_eq_none hb])
  · exact exec_of_answered_of_queues rfl ha (by simp only [requestAct, actChanRead, chanOf_eq_some hc]; rfl) rfl
  · exact exec_of_answered_of_queues (i := .timeRead h) rfl ha rfl rfl
  · refine exec_of_refused rfl ha ?_
    simp only [requestAct, actZoneRead, State.zoneNamed_of_missing (s := s.frameAccepted h.port) hm]
  · refine exec_of_answered_of_queues rfl ha ?_ rfl
    simp only [requestAct, actZoneRead, State.zoneNamed_of_zone (s := s.frameAccepted h.port) hz hx]
    rfl
  · have hsummary : (s.frameAccepted h.port).zoneSummary =
        (List.finRange 32).filterMap fun z => (s.zones[z]).map fun x => (z, x.owner, x.state) := by
      simp only [State.zoneSummary, State.slotsWith, Option.map_map]
      rfl
    rw [← hsummary]
    exact exec_of_answered_of_queues (i := .zoneList h) rfl ha rfl rfl
  · have hact : requestAct (.capFetch h) (s.frameAccepted h.port) =
        match (s.capture[h.port]).ring with
        | r :: _ => (s.frameAccepted h.port).doneWith (.captureRecord r)
        | [] => (s.frameAccepted h.port).refuse .empty := rfl
    cases hr : (s.capture[h.port]).ring with
    | nil => rw [hr] at hact; exact exec_of_refused rfl ha hact
    | cons r rest => rw [hr] at hact; exact exec_of_answered_of_queues rfl ha hact rfl
  · exact exec_of_answered_of_queues (i := .claimList h) rfl ha rfl rfl
  · exact exec_of_refused rfl ha (by simp only [requestAct, actOutRead, lineOf_eq_none_of_toNat hb])
  · refine exec_of_answered_of_queues rfl ha ?_ rfl
    simp only [requestAct, actOutRead, lineOf_eq_some_of_toNat hk]
    rfl
  · exact exec_of_answered_of_queues (i := .ident h) rfl ha rfl rfl

/-! ## Answers at the port (R147, R164, R173, R177) -/

/-- An answer, field by field. -/
theorem State.answer_eq (s : State) (p : PortId) (tag : Byte) (k : Half) (st : Status) (r : Results) :
    s.answer p tag k st r = { s with
      ports := s.ports.set p
        { (s.ports[p]).send ⟨tag, st, false, k, r⟩ with
          cache := if (s.sessions[p]).isOpen then some ⟨tag, st, false, k, r⟩ else (s.ports[p]).cache } } := by
  rw [← State.answer_ports]
  unfold State.answer State.send
  dsimp only
  split <;> rfl

/-- A session restarted has only a RUNNING timer at its full duration (R143). -/
theorem Session.restarted_eq (x : Session) :
    x.restarted = { x with timer := match x.timer with
      | .running _ => .running x.fullTime
      | .suspended => .suspended
      | .notRunning => .notRunning } := by
  obtain ⟨o, e, n, t, c⟩ := x
  cases t <;> rfl

/-- Settles O25: the answer of a NOP at the port whose frame was accepted, in an OPEN session. -/
theorem nopRestartsTheSilenceTimer : Obligations.NopRestartsTheSilenceTimer := by
  intro h s ha x y r idle
  have ho : y.isOpen = true := ha.isOpen (by decide)
  have hexec : exec (.nop h) s = .next ((s.frameAccepted h.port).answer h.port h.tag 0x0703 .ok .none) :=
    exec_of_answered_of_queues (i := .nop h) rfl ha rfl rfl
  have hport : (s.frameAccepted h.port).ports[h.port] = { x with receiver := .hunt, gapTimer := none } :=
    State.frameAccepted_port s h.port
  have hsession : (s.frameAccepted h.port).sessions[h.port] = y.restarted := State.frameAccepted_session s h.port
  have hsent : ({ ({ x with receiver := .hunt, gapTimer := none } : Port).send r with cache := some r } : Port) =
      { x with
        receiver := .hunt, gapTimer := none, cache := some r
        sending := if idle then some r else x.sending
        waiting := if idle then [] else x.waiting ++ [r] } := by
    rw [Port.send]
    by_cases hi : idle
    · rw [if_pos hi, if_pos hi, if_pos hi, hi.2]
    · rw [if_neg hi, if_neg hi, if_neg hi]
  rw [hexec, State.answer_eq, hport, hsession, Session.restarted_isOpen, if_pos ho, hsent, State.frameAccepted_ports,
    Vector.set_set, State.frameAccepted_sessions, Session.restarted_eq]
  rfl

/-- Settles O51: the report is of the port as the frame found it, and the counts are cleared behind it. -/
theorem portStatusReportsAndClears : Obligations.PortStatusReportsAndClears := by
  intro h s ha x y t
  have hport : t.ports[h.port] = { x with receiver := .hunt, gapTimer := none } := State.frameAccepted_port s h.port
  have hsession : t.sessions[h.port] = y.restarted := State.frameAccepted_session s h.port
  have hact : requestAct (.portStatus h) t =
      (t.setPort h.port { t.ports[h.port] with crcErrors := 0, framingErrors := 0, overruns := 0 }).doneWith
        (.portStatus y.isOpen y.epoch y.cause x.crcErrors x.framingErrors x.overruns s.timestamp
          (x.cache.map fun (r : Response) => r.tag)) := by
    simp only [requestAct, actPortStatus, hport, hsession, Session.restarted_isOpen, Session.restarted_epoch,
      Session.restarted_cause]
    rfl
  exact exec_of_answered_of_queues rfl ha hact rfl

/-- Settles O52: by what is being sent and what waits. -/
theorem responsesLeaveInOrder : Obligations.ResponsesLeaveInOrder := by
  intro p s x
  have he : exec (.responseSent p) s = .next (s.setPort p x.sentWhole) := rfl
  rw [he, Port.sentWhole]
  cases hs : x.sending with
  | none => exact congrArg _ (State.setPort_self s p)
  | some r =>
    cases hw : x.waiting with
    | nil => rfl
    | cons r' rest => rfl

end Sys2Proof.Machine
end

section
/-! SUPPORT. The statements about the sessions' requests, LRST_n and the AWAIT, settled. -/

namespace Sys2Proof.Machine

/-! ## OPEN (R140 to R142) -/

/-- The epochs count round from 1 to 255 (R136, R142). -/
theorem nextEpoch_eq (e : Byte) : nextEpoch e = BitVec.ofNat 8 (e.toNat % 255 + 1) := by
  apply BitVec.eq_of_toNat_eq
  have he := e.isLt
  rw [nextEpoch, BitVec.toNat_ofNat]
  split
  · rename_i h; rw [h]; rfl
  · rename_i h
    have hne : e.toNat ≠ 255 := fun h' => h (BitVec.eq_of_toNat_eq h')
    rw [BitVec.toNat_add, show (1 : Byte).toNat = 1 from rfl, Nat.mod_eq_of_lt (show e.toNat < 255 by omega)]

/-- Settles O44, check by check in the order of R141. -/
theorem openStartsASession : Obligations.OpenStartsASession := by
  intro h silence s ha x epoch
  have hsession : (s.frameAccepted h.port).sessions[h.port] = x.restarted := State.frameAccepted_session s h.port
  have hact : requestAct (.openSession h silence) (s.frameAccepted h.port) =
      if x.isOpen = true then (s.frameAccepted h.port, some (.alreadyOpen, .alreadyOpen x.epoch x.silence))
      else if silence = 0 then (s.frameAccepted h.port).refuse .badArg
      else
        ((((s.frameAccepted h.port).setSession h.port (x.opened silence)).setCapture h.port
          CaptureState.fresh).setQueue h.port EventQueue.fresh).doneWith (.opened (nextEpoch x.epoch) x.cause) := by
    simp only [requestAct, actOpenSession, hsession, Session.opened, Session.restarted_isOpen, Session.restarted_epoch,
      Session.restarted_silence, Session.restarted_cause]
  by_cases ho : x.isOpen = true
  · rw [if_pos ho] at hact ⊢; exact exec_of_answered_of_queues rfl ha hact rfl
  rw [if_neg ho] at hact ⊢
  by_cases hn : silence = 0
  · rw [if_pos hn] at hact ⊢; exact exec_of_refused rfl ha hact
  rw [if_neg hn] at hact ⊢
  have hgrow : ∀ p : PortId, ((s.queues.set h.port EventQueue.fresh)[p]).records.length ≤
      (s.queues[p]).records.length :=
    forall_get_set (Q := fun p (q : EventQueue) => q.records.length ≤ (s.queues[p]).records.length) (Nat.zero_le _)
      fun _ => le_refl _
  have hset : (s.frameAccepted h.port).sessions.set h.port (x.opened silence) =
      s.sessions.set h.port (x.opened silence) := Vector.set_set ..
  rw [exec_of_answered_of_no_growth rfl ha hact hgrow, State.setSession, hset]
  simp only [Session.opened, nextEpoch_eq]
  rfl

/-! ## CLOSE and the silence timer (R143, R145, R146, R148) -/

/-- A response of a CLOSED session is sent and not cached (R173). -/
theorem State.answer_of_closed {s : State} {p : PortId} (hc : (s.sessions[p]).isOpen = false) (tag : Byte) (k : Half)
    (status : Status) (results : Results) :
    s.answer p tag k status results = s.send p ⟨tag, status, false, k, results⟩ := by
  rw [State.answer]
  exact if_neg (by rw [hc]; exact Bool.false_ne_true)

theorem State.tornDown_isOpen_self (s : State) (p : PortId) (cause : CloseCause) :
    ((s.tornDown p cause).sessions[p]).isOpen = false := by
  rw [State.tornDown_sessions, get_set_self]

/-- Settles O45: both ends of a session are its teardown. -/
theorem closeAndSilenceTearDown : Obligations.CloseAndSilenceTearDown := by
  refine ⟨fun h s ha => ?_, fun p s => ?_⟩
  · intro t
    have hact : requestAct (.closeSession h) (s.frameAccepted h.port) = t.done := by
      simp only [requestAct, actCloseSession, State.teardown_eq, t]
    rw [exec_of_answered rfl ha hact, State.reply, State.answer_of_closed (State.tornDown_isOpen_self _ _ _)]
    rfl
  · have hexec : exec (.silenceTimeout p) s = .next (s.happening fun t => t.silenceRunOut p) := rfl
    rw [hexec]
    by_cases hd : (s.sessions[p]).isOpen = true ∧ (s.sessions[p]).timer = .running 0
    · rw [if_pos hd, State.happening, State.notify_eq_awaitsEnded, State.silenceRunOut, if_pos hd, State.teardown_eq]
    · have he : s.silenceRunOut p = s := if_neg hd
      rw [if_neg hd, State.happening_of_queues (f := fun t => t.silenceRunOut p) (by rw [he])]
      exact congrArg _ he

/-! ## LRST_n (R154, R155, R157) -/

/-- Settles O47: the teardown of an OPEN session, then the port, which loses all but the response being sent. -/
theorem portResetEndsTheSession : Obligations.PortResetEndsTheSession := by
  intro p s t x
  refine ⟨?_, rfl⟩
  have hexec : exec (.lrstNAsserted p) s = .next (s.happening fun u => u.lrstAsserted p) := rfl
  rw [hexec]
  by_cases hl : (s.ports[p]).lrst = true
  · have he : s.lrstAsserted p = s := if_pos hl
    rw [if_pos hl, State.happening_of_queues (f := fun u => u.lrstAsserted p) (by rw [he])]
    exact congrArg _ he
  · have he : s.lrstAsserted p = t.setPort p (t.ports[p]).lineReset := by
      rw [State.lrstAsserted, if_neg hl, State.teardown_eq]
    have hreset : t.setPort p (t.ports[p]).lineReset = { t with ports := s.ports.set p x } := by
      simp only [t]
      split
      · rw [State.setPort]
        simp only [State.tornDown_ports, get_set_self, Vector.set_set]
        rfl
      · rfl
    rw [if_neg hl, State.happening, State.notify_eq_awaitsEnded, he, hreset]

/-! ## The AWAIT (R144, R167 to R171) -/

/-- Settles O48, check by check in the order of R168. -/
theorem awaitWaitsOverAnEmptyQueue : Obligations.AwaitWaitsOverAnEmptyQueue := by
  intro h timeout s ha t q
  have hact : requestAct (.await h timeout) t =
      if timeout = 0 then t.refuse .badArg
      else if q.records ≠ [] then t.doneWith (.depth q.records.length)
      else
        ((t.setPort h.port { t.ports[h.port] with awaiting := some ⟨h.tag, timeout, timeout.toNat * 10000⟩ }).setSession
          h.port { t.sessions[h.port] with timer := .suspended }, none) := rfl
  by_cases hn : timeout = 0
  · rw [if_pos hn] at hact ⊢; exact exec_of_refused rfl ha hact
  rw [if_neg hn] at hact ⊢
  by_cases hq : q.records ≠ []
  · rw [if_pos hq] at hact ⊢; exact exec_of_answered_of_queues rfl ha hact rfl
  · rw [if_neg hq] at hact ⊢
    rw [exec_of_unanswered rfl ha hact rfl, State.setPort, State.setSession]
    simp only [t, State.frameAccepted_ports,
      State.frameAccepted_sessions, Vector.set_set, get_set_self, Session.restarted_eq]

/-- An AWAIT in flight answered, field by field (R144, R167, R173). -/
theorem State.endAwait_of_some {s : State} {p : PortId} {a : Awaiting} (h : (s.ports[p]).awaiting = some a)
    (status : Status) (results : Results) : s.endAwait p status results = s.awaitAnswered p a status results := by
  rw [State.endAwait, h]
  dsimp only
  rw [State.answer_eq]
  simp only [State.stopAwait, State.setPort_ports, State.setSession_sessions, State.setPort_sessions,
    State.setSession_ports, get_set_self, Vector.set_set]
  rfl

theorem State.endAwait_of_none {s : State} {p : PortId} (h : (s.ports[p]).awaiting = none) (status : Status)
    (results : Results) : s.endAwait p status results = s := by
  rw [State.endAwait, h]

/-- Settles O49: each ending is the answer of the AWAIT in flight, where its occasion is present. -/
theorem awaitEndsOnTimerOrStore : Obligations.AwaitEndsOnTimerOrStore := by
  intro p s q
  have htimeout : exec (.awaitTimeout p) s =
      .next (if (s.ports[p]).awaiting.any (·.left == 0) then s.endAwait p .timeout .none else s) := rfl
  have hstore : exec (.awaitEndedByStore p) s =
      .next (if q.records ≠ [] then s.endAwait p .ok (.depth q.records.length) else s) := rfl
  rw [htimeout, hstore]
  cases ha : (s.ports[p]).awaiting with
  | none =>
    refine ⟨rfl, ?_⟩
    rw [State.endAwait_of_none ha, ite_self]
  | some a =>
    rw [State.endAwait_of_some ha, State.endAwait_of_some ha]
    constructor
    · by_cases hl : a.left = 0
      · rw [if_pos (by simpa using hl)]; exact (if_pos hl).symm
      · rw [if_neg (by simpa using hl)]; exact (if_neg hl).symm
    · by_cases hq : q.records = []
      · rw [if_neg (not_not.mpr hq)]; exact (if_pos hq).symm
      · rw [if_pos hq]; exact (if_neg hq).symm

/-- Sending does not look at the AWAIT. -/
theorem Port.send_with_awaiting (x : Port) (r : Response) (o : Option Awaiting) :
    ({ x.send r with awaiting := o } : Port) = ({ x with awaiting := o } : Port).send r := by
  unfold Port.send
  split <;> rfl

/-- Settles O50: CANCELLED to the AWAIT first, then the answer of the CANCEL. -/
theorem cancelEndsTheAwait : Obligations.CancelEndsTheAwait := by
  intro h s ha t
  have hport : t.ports[h.port] = { s.ports[h.port] with receiver := .hunt, gapTimer := none } :=
    State.frameAccepted_port s h.port
  have hfull : (t.sessions[h.port]).fullTime = (s.sessions[h.port]).fullTime := by
    rw [show t.sessions[h.port] = (s.sessions[h.port]).restarted from State.frameAccepted_session s h.port,
      Session.fullTime, Session.restarted_silence]
    rfl
  have hact : requestAct (.cancel h) t =
      match (s.ports[h.port]).awaiting with
      | none => t.refuse .nothingPending
      | some a => ((t.send h.port ⟨a.tag, .cancelled, false, Kind.await.code, .none⟩).stopAwait h.port).done := by
    simp only [requestAct, actCancel, hport] <;> rfl
  cases hw : (s.ports[h.port]).awaiting with
  | none => rw [hw] at hact; exact exec_of_refused rfl ha hact
  | some a =>
    rw [hw] at hact
    rw [exec_of_answered_of_queues rfl ha hact rfl]
    simp only [State.stopAwait, State.send, State.setPort, State.setSession, get_set_self, Vector.set_set,
      Port.send_with_awaiting, hfull]
    rfl

end Sys2Proof.Machine
end

section
/-! SUPPORT. HUB_RESET: what it leaves of each table where no other session holds a claim (R150 to R152), settled. -/

namespace Sys2Proof.Machine

/-! ## A teardown that frees nothing -/

/-- A session that holds no claim departs without a notice, and no entry and no line changes (R148). -/
theorem State.tornDown_of_free {s : State} {p : PortId} (hf : ∀ r : ResId, s.holder r ≠ some p) (cause : CloseCause) :
    s.tornDown p cause = { s with
      zones := (s.tornDown p cause).zones
      capture := s.capture.set p CaptureState.fresh
      queues := s.queues.set p (s.queues[p]).emptied
      ports := s.ports.set p { s.ports[p] with cache := none }
      sessions := s.sessions.set p { s.sessions[p] with isOpen := false, timer := .notRunning, cause := cause } } := by
  have hnotices : (fun q => if q = p then ([] : List Event)
      else ((List.finRange 14).filter fun r => s.holder r = some p).map .claimFreed) = fun _ => [] := by
    funext q
    rw [List.filter_eq_nil_iff.mpr fun r _ => by simpa using hf r, List.map_nil, ite_self]
  have hclaims : (Vector.ofFn fun r : ResId => if s.holder r = some p then none else s.claims[r]) = s.claims := by
    ext i hi : 1
    rw [Vector.getElem_ofFn, if_neg (hf ⟨i, hi⟩)]
    rfl
  have hlines : (Vector.ofFn fun k : LineId =>
      if s.holder (lineRes k) = some p then OutLine.defaults (s.lines[k]).safe else s.lines[k]) = s.lines := by
    ext i hi : 1
    rw [Vector.getElem_ofFn, if_neg (hf (lineRes ⟨i, hi⟩))]
    rfl
  unfold State.tornDown
  dsimp only
  rw [hnotices, State.posted_nil, hclaims, hlines]
  rfl

/-! ## One other session (R151, step 1) -/

/-- A session after a HUB_RESET of another master. -/
def Session.endedByReset (x : Session) : Session :=
  if x.isOpen then { x with isOpen := false, timer := .notRunning, cause := .hubReset } else x

/-- A port after a HUB_RESET of another master has ended its AWAIT and its session, the error counts not yet cleared. -/
def Port.endedByReset (x : Port) : Port :=
  match x.awaiting with
  | some a =>
    { ({ x with awaiting := none } : Port).send ⟨a.tag, .sessionEnded, false, Kind.await.code, .none⟩ with
      cache := none }
  | none => { x with cache := none }

theorem Port.endedByReset_of_some {x : Port} {a : Awaiting} (h : x.awaiting = some a) :
    x.endedByReset =
      { ({ x with awaiting := none } : Port).send ⟨a.tag, .sessionEnded, false, Kind.await.code, .none⟩ with
        cache := none } := by
  unfold Port.endedByReset
  split
  · rename_i b hb
    rw [h] at hb; cases hb; rfl
  · rename_i hb
    rw [h] at hb; cases hb

theorem Port.endedByReset_of_none {x : Port} (h : x.awaiting = none) : x.endedByReset = { x with cache := none } := by
  unfold Port.endedByReset
  split
  · rename_i b hb
    rw [h] at hb; cases hb
  · rfl

/-- What the laws say of a session that a HUB_RESET ends, and that it holds no claim: a CLOSED one is empty (R138), and
an AWAIT waits over an empty queue (R168). -/
structure State.ResetReady (s : State) (q : PortId) : Prop where
  closed : (s.sessions[q]).isOpen = false → s.capture[q] = CaptureState.fresh ∧
    (s.queues[q]).emptied = s.queues[q] ∧ (s.ports[q]).cache = none ∧ (s.ports[q]).awaiting = none
  empty : (s.ports[q]).awaiting.isSome = true → (s.queues[q]).records = []
  free : ∀ r : ResId, s.holder r ≠ some q

theorem State.resetSession_eq {s : State} {q : PortId} (h : s.ResetReady q) :
    s.resetSession q = { s with
      zones := (s.resetSession q).zones
      capture := s.capture.set q CaptureState.fresh
      queues := s.queues.set q (s.queues[q]).emptied
      ports := s.ports.set q (s.ports[q]).endedByReset
      sessions := s.sessions.set q (s.sessions[q]).endedByReset } := by
  by_cases ho : (s.sessions[q]).isOpen = true
  · have htorn : s.resetSession q = (s.endAwaitByReset q).tornDown q .hubReset := by
      rw [State.resetSession, if_pos ho, State.teardown_eq]
    rw [htorn]
    cases ha : (s.ports[q]).awaiting with
    | none =>
      have hnone : s.endAwaitByReset q = s := by rw [State.endAwaitByReset, ha]
      rw [hnone, Session.endedByReset, if_pos ho, Port.endedByReset_of_none ha]
      exact State.tornDown_of_free h.free _
    | some a =>
      have hsome : s.endAwaitByReset q =
          (s.stopAwait q).send q ⟨a.tag, .sessionEnded, false, Kind.await.code, .none⟩ := by
        rw [State.endAwaitByReset, ha]
        exact if_pos (h.empty (by rw [ha]; rfl))
      have hfree : ∀ r : ResId, ((s.stopAwait q).send q
          ⟨a.tag, .sessionEnded, false, Kind.await.code, .none⟩).holder r ≠ some q := h.free
      rw [hsome, Session.endedByReset, if_pos ho, Port.endedByReset_of_some ha]
      refine (State.tornDown_of_free hfree _).trans ?_
      simp only [State.send, State.stopAwait, State.setPort, State.setSession, get_set_self, Vector.set_set]
  · obtain ⟨hcapture, hqueue, hcache, hawait⟩ := h.closed (by simpa using ho)
    have hport : (s.ports[q]).endedByReset = s.ports[q] := by
      rw [Port.endedByReset_of_none hawait]
      exact congrArg (fun c => ({ s.ports[q] with cache := c } : Port)) hcache.symm
    have hsession : (s.sessions[q]).endedByReset = s.sessions[q] := if_neg ho
    have hsame : s.resetSession q = s := if_neg ho
    rw [hsame, hport, hsession, hqueue, ← hcapture]
    simp only [set_get_self]

/-! ## All other sessions -/

/-- A table of the masters in which the masters of a list are rewritten. -/
def rewritten {α : Type} (v : Vector α 3) (l : List PortId) (f : PortId → α) : Vector α 3 :=
  Vector.ofFn fun q => if q ∈ l then f q else v[q]

theorem rewritten_nil {α : Type} (v : Vector α 3) (f : PortId → α) : rewritten v [] f = v := by
  ext i hi : 1
  simp [rewritten]

/-- Rewriting one master, then those of a list that it is not in. -/
theorem rewritten_cons {α : Type} (v : Vector α 3) {a : PortId} {l : List PortId} (ha : a ∉ l) (f g : PortId → α)
    (hg : ∀ q, q ≠ a → g q = f q) : rewritten (v.set a (f a)) l g = rewritten v (a :: l) f := by
  refine congrArg Vector.ofFn (funext fun q => ?_)
  by_cases hq : q = a
  · subst hq
    rw [if_neg ha, if_pos (by simp)]
    exact get_set_self _ _ _
  · rw [hg q hq]
    simp only [List.mem_cons, hq, false_or]
    exact congrArg _ (get_set_of_ne _ hq _)

theorem State.resetSession_foldl (l : List PortId) (s : State) (hl : l.Nodup) (h : ∀ q ∈ l, s.ResetReady q) :
    l.foldl State.resetSession s = { s with
      zones := (l.foldl State.resetSession s).zones
      capture := rewritten s.capture l fun _ => CaptureState.fresh
      queues := rewritten s.queues l fun q => (s.queues[q]).emptied
      ports := rewritten s.ports l fun q => (s.ports[q]).endedByReset
      sessions := rewritten s.sessions l fun q => (s.sessions[q]).endedByReset } := by
  induction l generalizing s with
  | nil => simp only [rewritten_nil, List.foldl_nil]
  | cons a l ih =>
    obtain ⟨ha, hl⟩ := List.nodup_cons.mp hl
    have hstep := State.resetSession_eq (h a (by simp))
    have hcaptures : (s.resetSession a).capture = s.capture.set a CaptureState.fresh := congrArg State.capture hstep
    have hqueues : (s.resetSession a).queues = s.queues.set a (s.queues[a]).emptied := congrArg State.queues hstep
    have hports : (s.resetSession a).ports = s.ports.set a (s.ports[a]).endedByReset := congrArg State.ports hstep
    have hsessions : (s.resetSession a).sessions = s.sessions.set a (s.sessions[a]).endedByReset :=
      congrArg State.sessions hstep
    have hcapture (q : PortId) (hq : q ≠ a) : (s.resetSession a).capture[q] = s.capture[q] := by
      rw [hcaptures]; exact get_set_of_ne _ hq _
    have hqueue (q : PortId) (hq : q ≠ a) : (s.resetSession a).queues[q] = s.queues[q] := by
      rw [hqueues]; exact get_set_of_ne _ hq _
    have hport (q : PortId) (hq : q ≠ a) : (s.resetSession a).ports[q] = s.ports[q] := by
      rw [hports]; exact get_set_of_ne _ hq _
    have hsession (q : PortId) (hq : q ≠ a) : (s.resetSession a).sessions[q] = s.sessions[q] := by
      rw [hsessions]; exact get_set_of_ne _ hq _
    have hholder (r : ResId) : (s.resetSession a).holder r = s.holder r := by
      rw [State.holder, congrArg State.claims hstep]; rfl
    have hready : ∀ q ∈ l, (s.resetSession a).ResetReady q := fun q hq => by
      have hne : q ≠ a := fun e => ha (e ▸ hq)
      obtain ⟨h1, h2, h3⟩ := h q (by simp [hq])
      refine ⟨?_, ?_, fun r => by rw [hholder]; exact h3 r⟩
      · rw [hsession q hne, hcapture q hne, hqueue q hne, hport q hne]; exact h1
      · rw [hqueue q hne, hport q hne]; exact h2
    rw [List.foldl_cons]
    refine (ih _ hl hready).trans ?_
    rw [← rewritten_cons s.capture ha _ (fun _ => CaptureState.fresh) fun _ _ => rfl,
      ← rewritten_cons s.queues ha _ (fun q => ((s.resetSession a).queues[q]).emptied) fun q hq => by rw [hqueue q hq],
      ← rewritten_cons s.ports ha _ (fun q => ((s.resetSession a).ports[q]).endedByReset) fun q hq => by
        rw [hport q hq],
      ← rewritten_cons s.sessions ha _ (fun q => ((s.resetSession a).sessions[q]).endedByReset) fun q hq => by
        rw [hsession q hq],
      ← hcaptures, ← hqueues, ← hports, ← hsessions]
    rw [State.mk.injEq]
    exact ⟨(congrArg State.timestamp hstep :), (congrArg State.channels hstep :), rfl, rfl,
      (congrArg State.capLevels hstep :), rfl,
      (congrArg State.claims hstep :), (congrArg State.lines hstep :), rfl, rfl, (congrArg State.pending hstep :)⟩

/-- The caches and error counts of the ports of a list cleared (R151, step 6). -/
theorem State.resetPort_foldl (l : List PortId) (s : State) (hl : l.Nodup) :
    l.foldl State.resetPort s = { s with
      ports := rewritten s.ports l fun q =>
        { s.ports[q] with cache := none, crcErrors := 0, framingErrors := 0, overruns := 0 } } := by
  induction l generalizing s with
  | nil => simp only [rewritten_nil, List.foldl_nil]
  | cons a l ih =>
    obtain ⟨ha, hl⟩ := List.nodup_cons.mp hl
    have hport (q : PortId) (hq : q ≠ a) : (s.resetPort a).ports[q] = s.ports[q] := get_set_of_ne _ hq _
    rw [List.foldl_cons, ih _ hl, ← rewritten_cons s.ports ha _ (fun q =>
      { (s.resetPort a).ports[q] with cache := none, crcErrors := 0, framingErrors := 0, overruns := 0 })
      fun q hq => by rw [hport q hq]]
    rfl

/-! ## The whole hub (R151) -/

/-- A port after a HUB_RESET of another master. -/
def Port.clearedByReset (x : Port) : Port :=
  { x.endedByReset with cache := none, crcErrors := 0, framingErrors := 0, overruns := 0 }

/-- A record of each master, the one that asked keeping its own. -/
theorem rewritten_otherPorts {α : Type} (v : Vector α 3) (p : PortId) (f : PortId → α) :
    rewritten v (otherPorts p) f = Vector.ofFn fun q => if q = p then v[q] else f q := by
  refine congrArg Vector.ofFn (funext fun q => ?_)
  rw [if_congr mem_otherPorts rfl rfl, ite_not]

/-- A table whose other records are given, with the one record set. -/
theorem set_eq_ofFn {α : Type} {v : Vector α 3} {p : PortId} {f : PortId → α} (h : ∀ q, q ≠ p → v[q] = f q) :
    v.set p (f p) = Vector.ofFn f := by
  refine Vector.ext fun i hi => ?_
  rw [Vector.getElem_ofFn]
  by_cases he : (⟨i, hi⟩ : PortId) = p
  · subst he; exact get_set_self v ⟨i, hi⟩ _
  · exact (get_set_of_ne v he _).trans (h ⟨i, hi⟩ he)

theorem otherPorts_nodup (p : PortId) : (otherPorts p).Nodup := by revert p; decide

theorem mapRows_eq_ofFn {α : Type} {n : Nat} (f : α → α) (v : Vector α n) :
    mapRows f v = Vector.ofFn fun i => f v[i] := by
  ext i hi : 1
  simp

theorem State.hubReset_eq {s : State} {p : PortId} (h : ∀ q : PortId, q ≠ p → s.ResetReady q) :
    s.hubReset p = { s with
      timestamp := 0
      channels := Vector.ofFn fun c => Channel.atReset (s.channels[c]).levels
      zones := Vector.replicate 32 none
      capture := Vector.replicate 3 CaptureState.fresh
      queues := Vector.ofFn fun q => (s.queues[q]).emptied
      claims := Vector.replicate 14 none
      lines := Vector.ofFn fun k => OutLine.defaults (s.lines[k]).safe
      sessions := Vector.ofFn fun q => if q = p then s.sessions[q] else (s.sessions[q]).endedByReset
      ports := Vector.ofFn fun q => if q = p then s.ports[q] else (s.ports[q]).clearedByReset } := by
  have hnodup : (otherPorts p).Nodup := otherPorts_nodup p
  have hreset := State.resetSession_foldl (otherPorts p) s hnodup fun q hq => h q (mem_otherPorts.mp hq)
  simp only [rewritten_otherPorts] at hreset
  have hcapture (q : PortId) : ((otherPorts p).foldl State.resetSession s).capture[q] =
      if q = p then s.capture[q] else CaptureState.fresh := by
    rw [(congrArg State.capture hreset :)]; exact Vector.getElem_ofFn ..
  have hqueue (q : PortId) : ((otherPorts p).foldl State.resetSession s).queues[q] =
      if q = p then s.queues[q] else (s.queues[q]).emptied := by
    rw [(congrArg State.queues hreset :)]; exact Vector.getElem_ofFn ..
  have hport (q : PortId) : ((otherPorts p).foldl State.resetSession s).ports[q] =
      if q = p then s.ports[q] else (s.ports[q]).endedByReset := by
    rw [(congrArg State.ports hreset :)]; exact Vector.getElem_ofFn ..
  rw [State.hubReset, State.resetPort_foldl _ _ hnodup, rewritten_otherPorts, State.setQueue, State.setCapture,
    State.mk.injEq]
  refine ⟨rfl, ?_, rfl, ?_, (congrArg State.capLevels hreset :), ?_, rfl, ?_, (congrArg State.sessions hreset :), ?_,
    (congrArg State.pending hreset :)⟩
  · exact (congrArg (mapRows _) (congrArg State.channels hreset :)).trans (mapRows_eq_ofFn _ _)
  · refine (set_eq_ofFn (f := fun _ => CaptureState.fresh) fun q hq => ?_).trans ?_
    · exact (hcapture q).trans (if_neg hq)
    · exact Vector.ext fun i hi => by simp
  · rw [← set_eq_ofFn (v := ((otherPorts p).foldl State.resetSession s).queues) (p := p)
      (f := fun q => (s.queues[q]).emptied) fun q hq => (hqueue q).trans (if_neg hq)]
    exact congrArg (fun x => Vector.set _ p (EventQueue.emptied x)) ((hqueue p).trans (if_pos rfl))
  · exact (congrArg (mapRows _) (congrArg State.lines hreset :)).trans (mapRows_eq_ofFn _ _)
  · refine congrArg Vector.ofFn (funext fun q => ?_)
    by_cases he : q = p
    · rw [if_pos he, if_pos he]
      exact (hport q).trans (if_pos he)
    · rw [if_neg he, if_neg he, Port.clearedByReset]
      exact congrArg
        (fun x : Port => ({ x with cache := none, crcErrors := 0, framingErrors := 0, overruns := 0 } : Port))
        ((hport q).trans (if_neg he))

/-! ## The request (R150 to R152) -/

/-- The entry held by another session with the lowest resource id (R150). -/
theorem State.heldByOther_eq_some {s : State} {p q : PortId} {r : ResId} (hr : s.holder r = some q) (hq : q ≠ p)
    (hlow : ∀ r' : ResId, r' < r → ∀ q' : PortId, ¬ (s.holder r' = some q' ∧ q' ≠ p)) :
    s.heldByOther p = some (r, q) := by
  rw [State.heldByOther, ← Fin.findSome?_eq_findSome?_finRange, Fin.findSome?_eq_some_iff]
  refine ⟨r, ?_, fun r' hr' => ?_⟩
  · rw [hr]; exact if_neg hq
  · cases hh : s.holder r' with
    | none => rfl
    | some q' => exact if_pos (not_not.mp fun hne => hlow r' hr' q' ⟨hh, hne⟩)

theorem State.heldByOther_eq_none {s : State} {p : PortId}
    (h : ∀ (r : ResId) (q : PortId), ¬ (s.holder r = some q ∧ q ≠ p)) : s.heldByOther p = none := by
  rw [State.heldByOther, ← Fin.findSome?_eq_findSome?_finRange, Fin.findSome?_eq_none_iff]
  intro r
  cases hh : s.holder r with
  | none => rfl
  | some q => exact if_pos (not_not.mp fun hne => h r q ⟨hh, hne⟩)

/-- The laws of the hub make every other session ready for a HUB_RESET that finds no claim of theirs. -/
theorem HubLawful.resetReady {s : State} (hs : HubLawful s) {p q : PortId} (hq : q ≠ p)
    (hfree : ∀ r : ResId, s.holder r ≠ some q) : (s.frameAccepted p).ResetReady q := by
  obtain ⟨-, -, -, hqueues, -, hports⟩ := hs
  have hlaw := portLawful_iff.mp (hports q)
  have hport : (s.frameAccepted p).ports[q] = s.ports[q] := get_set_of_ne _ hq _
  have hsession : (s.frameAccepted p).sessions[q] = s.sessions[q] := get_set_of_ne _ hq _
  refine ⟨?_, ?_, hfree⟩
  · rw [hsession, hport]
    intro hc
    obtain ⟨hrecords, hoverflow, hcapture, hcache, hawait, -⟩ := hlaw.closed hc
    refine ⟨hcapture, ?_, hcache, hawait⟩
    have hattn : (s.queues[q]).attn = false := by
      rw [(hqueues q).2.2, attnCondition, hc]; rfl
    show (s.queues[q]).emptied = s.queues[q]
    rw [EventQueue.emptied, ← hrecords, ← hoverflow, ← hattn]
  · rw [hport]; exact hlaw.waits

/-- Sending does not look at the cache and the error counts. -/
theorem Port.send_cleared (x : Port) (r : Response) :
    ({ x.send r with cache := none, crcErrors := 0, framingErrors := 0, overruns := 0 } : Port) =
      ({ x with cache := none, crcErrors := 0, framingErrors := 0, overruns := 0 } : Port).send r := by
  unfold Port.send
  split <;> rfl

theorem Port.clearedByReset_eq (x : Port) :
    x.clearedByReset =
      let y : Port := { x with awaiting := none, cache := none, crcErrors := 0, framingErrors := 0, overruns := 0 }
      match x.awaiting with
      | some a => y.send ⟨a.tag, .sessionEnded, false, Kind.await.code, .none⟩
      | none => y := by
  rw [Port.clearedByReset]
  dsimp only
  cases ha : x.awaiting with
  | none => rw [Port.endedByReset_of_none ha]; dsimp only; rw [ha]
  | some a => rw [Port.endedByReset_of_some ha]; exact Port.send_cleared { x with awaiting := none } _

/-- Settles O46: refused over another's claim; else each table by the reset of its records. -/
theorem hubResetResetsTheHub : Obligations.HubResetResetsTheHub := by
  intro h s ha hs t heldBy
  refine ⟨fun r q hr hlow => ?_, fun hfree => ?_⟩
  · have hact : requestAct (.hubReset h) t = (t, some (.held, .heldResource r q)) := by
      simp only [requestAct, actHubReset, State.heldByOther_eq_some (s := t) hr.1 hr.2 hlow]
    exact exec_of_answered_of_queues rfl ha hact rfl
  · have hact : requestAct (.hubReset h) t = (t.hubReset h.port).done := by
      simp only [requestAct, actHubReset, State.heldByOther_eq_none (s := t) hfree]
    have hready : ∀ q : PortId, q ≠ h.port → t.ResetReady q := fun q hq =>
      HubLawful.resetReady hs hq fun r hr => hfree r q ⟨hr, hq⟩
    rw [State.hubReset_eq hready] at hact
    refine (exec_of_answered_of_no_growth rfl ha hact fun p => ?_).trans ?_
    · exact (congrArg (fun x : EventQueue => x.records.length) (Vector.getElem_ofFn ..)).trans_le (Nat.zero_le _)
    · have hport (q : PortId) (hq : q ≠ h.port) : t.ports[q] = s.ports[q] := get_set_of_ne _ hq _
      have hsession (q : PortId) (hq : q ≠ h.port) : t.sessions[q] = s.sessions[q] := get_set_of_ne _ hq _
      have hsessions : (fun q : PortId => if q = h.port then t.sessions[q] else (t.sessions[q]).endedByReset) =
          fun q => if q = h.port then t.sessions[q] else (s.sessions[q]).endedByReset := by
        funext q
        by_cases hq : q = h.port
        · rw [if_pos hq, if_pos hq]
        · rw [if_neg hq, if_neg hq, hsession q hq]
      have hports : (fun q : PortId => if q = h.port then t.ports[q] else (t.ports[q]).clearedByReset) =
          fun q => if q = h.port then t.ports[q] else (s.ports[q]).clearedByReset := by
        funext q
        by_cases hq : q = h.port
        · rw [if_pos hq, if_pos hq]
        · rw [if_neg hq, if_neg hq, hport q hq]
      rw [hsessions, hports]
      simp only [Port.clearedByReset_eq]
      rfl

end Sys2Proof.Machine
end
